-- ==== Sys2Proof/Word.lean ====
section
/-! DEFINITION. The one bit-vector type of the block: a byte (spec/00_scope.md section 5). Every other quantity of the
spec is a natural number or a name. -/

namespace Sys2Proof

/-- An 8-bit unsigned value; bit 7 has mask 0x80 and bit 0 mask 0x01. Nothing in the spec is signed. -/
abbrev Byte := BitVec 8

end Sys2Proof
end

