-- ==== Sys2Proof/Machine/Constants.lean ====
section
/-! DEFINITION. The fixed constants of spec/00_scope.md R5. The letter codes are ASCII (spec/30_encoding.md R73, which
marks them as general knowledge; assumption 16). -/

namespace Sys2Proof.Machine

/-- `FRAME_LEN`: bytes in a command frame. -/
abbrev frameLen : Nat := 14

/-- `N_CH`: pulse-width channels. -/
abbrev nCh : Nat := 6

/-- `MARKER`, the letter C. -/
abbrev marker : Byte := 0x43#8

/-- `POS_CLIP`: the largest position that is not clipped. -/
abbrev posClip : Nat := 156

/-- `POS_SCALE`: offset units per position step. -/
abbrev posScale : Nat := 8

/-- `MAX_OFFSET` = `POS_CLIP * POS_SCALE` (spec/90_conflicts.md C3: 1248, not 1256). -/
abbrev maxOffset : Nat := 1248

/-- `SW_A_MASK`: the bit of byte 7 that drives digital output A. -/
abbrev swAMask : Byte := 0x40#8

/-- `SW_B_MASK`: the bit of byte 7 that drives digital output B. -/
abbrev swBMask : Byte := 0x80#8

/-- The four bytes of `ESC`: the letters E, N, D and 255. -/
abbrev escByteE : Byte := 0x45#8
abbrev escByteN : Byte := 0x4E#8
abbrev escByteD : Byte := 0x44#8
abbrev escByteFF : Byte := 0xFF#8

/-- `ACK_OK`, the letter G: frame accepted and applied. -/
abbrev ackOk : Byte := 0x47#8

/-- `NAK_CHK`, the letter k: checksum failure. -/
abbrev nakChk : Byte := 0x6B#8

/-- `NAK_SYNC`, the letter s: not synchronized or bad marker. -/
abbrev nakSync : Byte := 0x73#8

end Sys2Proof.Machine
end

