-- ==== Sys2Proof/Syntax.lean ====
section
/-! DEFINITION. The instructions: one constructor per row of spec/opcode_table.json (36 rows), and the events that make
the agents fire them. Frames keep all fourteen bytes (spec/30_encoding.md R60), the unread padding too, so that decoding
and encoding drop no bit. -/

namespace Sys2Proof

/-- The six pulse-width channels, numbered 1 to 6 (spec/10_state.md R12). `SetChannel` outside 1..6 is undefined, and
spec/93_implementation_defined.md I11 allows a six-valued type. -/
inductive Channel where
  | ch1 | ch2 | ch3 | ch4 | ch5 | ch6
deriving DecidableEq, Repr, Inhabited

/-- Format `FRAME14`, the command frame (spec/30_encoding.md R60), field by field in wire order. -/
structure Frame where
  marker : Byte
  pos1 : Byte
  pos2 : Byte
  pos3 : Byte
  pos4 : Byte
  pos5 : Byte
  pos6 : Byte
  sw : Byte
  rsv : Byte
  chk : Byte
  pad0 : Byte
  pad1 : Byte
  pad2 : Byte
  pad3 : Byte
deriving DecidableEq, Repr

/-- One constructor per row of spec/opcode_table.json, in the table's order. -/
inductive Instr where
  -- FRAME14: what the dispatcher decodes and executes
  | cmd (f : Frame)
  | cmdBadchk (f : Frame)
  | cmdBadmarker (f : Frame)
  -- BYTE_IN: what one received byte is, given the link state
  | escE
  | escN
  | escD
  | escFF
  | noise (b : Byte)
  | data (b : Byte)
  | overrun (b : Byte)
  -- BYTE_OUT: what one sent byte is
  | ackG
  | nakK
  | nakS
  | echo (b : Byte)
  -- EVENT: the fired operations of the RX agent
  | rx (b : Byte)
  | rxAppend (b : Byte)
  | rxOvr (b : Byte)
  | rxScan (b : Byte)
  | rxResync
  -- EVENT: the fired operations of the main sequencer's dispatcher
  | dispatch
  | dispS
  | dispK
  | dispG
  -- EVENT: the timer
  | tick
  | tickExpire
  -- EVENT: the main sequencer's recovery phase and idle step
  | recEnter
  | recIter
  | recExit
  | idle
  -- EVENT: the PWM agent and the environment
  | period (c : Channel)
  | reset
  -- EVENT: called, not fired
  | map (p : Byte)
  | chk
  | setChannel (c : Channel) (off : Nat)
  | neutralizeAll
  | setDigitalOutputs (b : Byte)
deriving DecidableEq, Repr

/-- What the environment picks when `MAIN_PRIORITY` leaves both `REC.ENTER` and `DISPATCH` enabled
(spec/43_watchdog.md R115); read in no other case. -/
inductive MainChoice where
  | enterFirst
  | dispatchFirst
deriving DecidableEq, Repr, Inhabited

/-- One event of the environment (spec/92_eei_decisions.md D1, spec/20_memory.md R50): it makes one agent fire one
operation, the one that the agent's rules enable in the state it lands in. -/
inductive Event where
  /-- A byte is received (agent RX). -/
  | rx (b : Byte)
  /-- One unit of time passes (agent TMR). -/
  | tick
  /-- The main sequencer takes its next step (agent MAIN). -/
  | main (pick : MainChoice)
  /-- The PWM period boundary of one channel (agent PWM). -/
  | period (c : Channel)
  /-- Reset or start-up (the environment). -/
  | reset
deriving DecidableEq, Repr, Inhabited

/-- One entry of the schedule: an event, or one row of the table fired under its own name (the trace words `disp`,
`enter` and `iter` of spec/30_encoding.md R74, and the model's port to every other row; assumption 11). -/
inductive Item where
  | event (e : Event)
  | op (i : Instr)
deriving DecidableEq, Repr

/-- The rows that the block itself may fire: all but the outbound bytes and the called functions
(spec/opcode_table.json, `agent`: "called, not fired"). -/
def Instr.isFired : Instr → Bool
  | .cmd _ => true
  | .cmdBadchk _ => true
  | .cmdBadmarker _ => true
  | .escE => true
  | .escN => true
  | .escD => true
  | .escFF => true
  | .noise _ => true
  | .data _ => true
  | .overrun _ => true
  | .ackG => false
  | .nakK => false
  | .nakS => false
  | .echo _ => false
  | .rx _ => true
  | .rxAppend _ => true
  | .rxOvr _ => true
  | .rxScan _ => true
  | .rxResync => true
  | .dispatch => true
  | .dispS => true
  | .dispK => true
  | .dispG => true
  | .tick => true
  | .tickExpire => true
  | .recEnter => true
  | .recIter => true
  | .recExit => true
  | .idle => true
  | .period _ => true
  | .reset => true
  | .map _ => false
  | .chk => false
  | .setChannel _ _ => false
  | .neutralizeAll => false
  | .setDigitalOutputs _ => false

/-- The schedule entries that stand for behaviour of the block: every event, and a fired row by name. -/
def Item.isFired : Item → Bool
  | .event _ => true
  | .op i => i.isFired

end Sys2Proof
end

