-- ==== Sys2Proof/Config.lean ====
section
/-! DEFINITION. The open parameters of spec/00_scope.md R6 with the constraint of R7, and the free values: constants
with no body, of which no proof can know anything. -/

namespace Sys2Proof

/-- `MAIN_PRIORITY` (spec/00_scope.md R6, spec/43_watchdog.md R115). -/
inductive MainPriority where
  | failFirst
  | readyFirst
  | either
deriving DecidableEq, Repr

/-- A configuration, fixed at build time. It carries the constraint of spec/00_scope.md R7 and `T_TIMEOUT ≥ 1`, so no
other configuration exists in the model: the spec refuses it (assumption 3). -/
structure Config where
  /-- `MIN_PULSE`: compare value of the neutral position. -/
  minPulse : Nat
  /-- `T_TIMEOUT`: silence timeout in timer ticks. -/
  tTimeout : Nat
  /-- `PW_WIDTH`: width in bits of a channel compare register. -/
  pwWidth : Nat
  /-- `MAIN_PRIORITY`. -/
  priority : MainPriority
  minPulse_ge : Machine.maxOffset ≤ minPulse
  minPulse_fits : minPulse ≤ 2 ^ pwWidth - 1
  tTimeout_pos : 1 ≤ tTimeout
deriving DecidableEq, Repr

/-- Why a configuration is refused (spec/00_scope.md R7, spec/93_implementation_defined.md I13, I14). -/
inductive ConfigRefusal where
  | minPulseBelowMaxOffset
  | minPulseTooWide
  | timeoutZero
deriving DecidableEq, Repr

/-- A configuration from raw parameters, or the reason it is refused. -/
def Config.build (minPulse tTimeout pwWidth : Nat) (priority : MainPriority) : Except ConfigRefusal Config :=
  if h₁ : Machine.maxOffset ≤ minPulse then
    if h₂ : minPulse ≤ 2 ^ pwWidth - 1 then
      if h₃ : 1 ≤ tTimeout then .ok ⟨minPulse, tTimeout, pwWidth, priority, h₁, h₂, h₃⟩
      else .error .timeoutZero
    else .error .minPulseTooWide
  else .error .minPulseBelowMaxOffset

/-- FREE VALUE: settles `MIN_PULSE` of the machine at reset (assumption 3). -/
opaque Config.freeMinPulse : Nat

/-- FREE VALUE: settles `T_TIMEOUT` of the machine at reset (assumption 3). -/
opaque Config.freeTimeout : Nat

/-- FREE VALUE: what cell `a` of `buf` holds after the `n`-th reset until something is written to it
(spec/10_state.md R11, spec/93_implementation_defined.md I7: any value; assumption 4). -/
opaque Config.powerOnByte : (n a : Nat) → Byte

/-- FREE VALUE: the environment's `n`-th choice of the next event, taken when the schedule lists none
(spec/20_memory.md R49: "the environment's choice"; assumption 1). -/
opaque Config.environment : (n : Nat) → Event

/-- FREE VALUE: settles what the `n`-th draw writes to a compare register when `SetChannel` is called with an offset
above 1248, for which spec/42_pwm.md R101 states no result (assumption 7). -/
opaque Config.freeCompare : (n : Nat) → Nat

/-- The configuration of the machine at reset: `PW_WIDTH` 16 and `MAIN_PRIORITY` either are spec/00_scope.md R6's values;
`MIN_PULSE` is any number from 1248 to 65535 and `T_TIMEOUT` any positive number, which ones the free values settle. -/
def Config.machine : Config where
  minPulse := 1248 + Config.freeMinPulse % 64288
  tTimeout := Config.freeTimeout + 1
  pwWidth := 16
  priority := .either
  minPulse_ge := Nat.le_add_right _ _
  minPulse_fits := by
    have h := Nat.mod_lt Config.freeMinPulse (show 64288 > 0 by decide)
    omega
  tTimeout_pos := Nat.le_add_left _ _

end Sys2Proof
end

