-- ==== Sys2Proof/Machine/State.lean ====
section
/-! DEFINITION. The state of LRRC CORE (spec/10_state.md R10), the reasons a step can stop, and reset
(spec/70_reset_and_hazards.md R140). -/

namespace Sys2Proof.Machine

/-- The main sequencer phase (spec/10_state.md R14). -/
inductive Phase where
  | run
  | recovery
deriving DecidableEq, Repr

/-- Six naturals, one per channel (spec/10_state.md R12, R22). -/
structure Channels where
  c1 : Nat
  c2 : Nat
  c3 : Nat
  c4 : Nat
  c5 : Nat
  c6 : Nat
deriving DecidableEq, Repr

/-- The frame buffer: (address, byte) pairs, addresses strictly rising and below 14 (`Memory.wf` in Machine/Ops.lean). An
address that is not listed is a cell nothing has written since reset. -/
abbrev Memory := List Host.Cell

/-- The state. The first field holds the parameters, the last four are the model's own (assumptions 1, 4 and 10); the
sixteen between them are the tuple of spec/10_state.md R10, flags of one bit as `Bool`. -/
structure State where
  /-- The build-time parameters of spec/00_scope.md R6. No operation writes them (assumption 3). -/
  cfg : Config
  /-- `buf[0..13]`, the CommandFrame buffer (R11). -/
  buf : Memory
  /-- `pw[1..6]`, the pending compare values (R12). -/
  pw : Channels
  /-- `idx`, the frame index 0..14 (R13). -/
  idx : Fin 15
  /-- `mphase` (R14). -/
  mphase : Phase
  /-- `sync`: true is Synchronized, false is Searching (R15). -/
  sync : Bool
  /-- `esc_e` (R16). -/
  escE : Bool
  /-- `esc_n` (R16). -/
  escN : Bool
  /-- `esc_d` (R16). -/
  escD : Bool
  /-- `fail`, the fail-safe flag (R17). -/
  fail : Bool
  /-- `ready`, a complete frame waits (R18). -/
  ready : Bool
  /-- `ovr`, the sticky overrun flag (R19). -/
  ovr : Bool
  /-- `tcnt`, the silence counter (R20). -/
  tcnt : Nat
  /-- `pwa[1..6]`, the applied pulse-width values (R22). -/
  pwa : Channels
  /-- `dout_a` (R23). -/
  doutA : Bool
  /-- `dout_b` (R23). -/
  doutB : Bool
  /-- `tx`, every byte sent since reset, oldest first (R24). -/
  tx : List Byte
  /-- Model's own: the environment's pending events, the next one first. -/
  sched : List Item
  /-- Model's own: how many free values were drawn (the environment's events, and compare values of assumption 7). -/
  draw : Nat
  /-- Model's own: how many resets have fired. -/
  epoch : Nat
  /-- Model's own: the value of the function row last run on its own. -/
  ret : Nat
deriving DecidableEq, Repr

/-- Faults. -/
inductive Fault where
  /-- Raised by `memWrite` (Machine/Ops.lean) on an address outside 0..13, which does not exist (spec/20_memory.md R40:
  "never issued"). No operation reaches it, since `RX.APPEND` is enabled at `idx` ≤ 13 only. Safe (assumption 18). -/
  | bufferAddress (addr : Nat)
deriving DecidableEq, Repr

/-- Refusals. -/
inductive Refusal where
  /-- Raised by an arm of `exec` whose instruction has no meaning yet; no arm is one. Safe. -/
  | notModelled (mnemonic : String)
  /-- Raised by a meaning in a state where its operation's enabling condition is false: the transition system has no such
  transition (spec/00_scope.md section 5, spec/43_watchdog.md R115). No event makes a step try one. Safe (assumption 6). -/
  | notEnabled (mnemonic : String)
  /-- Raised by `step` if the bytes it fetches are no encoding. It fetches one byte or fourteen, which always are. Safe. -/
  | undecoded
deriving DecidableEq, Repr

/-- The same value on all six channels. -/
def Channels.fill (v : Nat) : Channels := ⟨v, v, v, v, v, v⟩

/-- The machine of a configuration right after `RESET` (spec/70_reset_and_hazards.md R140). -/
def State.resetOf (cfg : Config) : State where
  cfg := cfg
  buf := []
  pw := Channels.fill cfg.minPulse
  idx := 0
  mphase := .run
  sync := true
  escE := false
  escN := false
  escD := false
  fail := false
  ready := false
  ovr := false
  tcnt := 0
  pwa := Channels.fill cfg.minPulse
  doutA := false
  doutB := false
  tx := []
  sched := []
  draw := 0
  epoch := 0
  ret := 0

/-- The machine right after reset, with the open parameters free (assumption 3). -/
def State.reset : State := State.resetOf Config.machine

end Sys2Proof.Machine
end

