-- ==== Sys2Proof/Machine/Flags.lean ====
section
/-! DEFINITION. Flag computations: the progress flags after a scanned byte (spec/40_framesync.md R83), `ready` after an
append (R81), and the enabling conditions of the operations (spec/43_watchdog.md R115, spec/41_dispatch.md R90). -/

namespace Sys2Proof.Machine

/-- `esc_e` after a scanned byte: set by the letter E, sticky. -/
def escEAfter (b : Byte) (e : Bool) : Bool := e || b == escByteE

/-- `esc_n` after a scanned byte: set by the letter N once `esc_e` is set, sticky. -/
def escNAfter (b : Byte) (e n : Bool) : Bool := n || (b == escByteN && e)

/-- `esc_d` after a scanned byte: set by the letter D once `esc_n` is set, sticky. -/
def escDAfter (b : Byte) (n d : Bool) : Bool := d || (b == escByteD && n)

/-- Does this byte, received while Searching, complete the escape sequence (spec/40_framesync.md R80)? -/
def completesEscape (b : Byte) (d : Bool) : Bool := d && b == escByteFF

/-- `idx + 1`, defined for `idx` ≤ 13 (spec/42_pwm.md R105 (e)); at 14 it stays. -/
def idxSucc (i : Fin 15) : Fin 15 := if h : i.val + 1 < 15 then ⟨i.val + 1, h⟩ else i

/-- `ready` after an append, from the new index: set at 14, otherwise kept (spec/40_framesync.md R81). -/
def readyAfter (newIdx : Fin 15) (ready : Bool) : Bool := ready || newIdx == 14

/-- `RX.APPEND` is enabled (spec/40_framesync.md R80). -/
def appendEnabled (s : State) : Bool := s.sync && decide (s.idx.val ≤ 13)

/-- `RX.OVR` is enabled (spec/40_framesync.md R80). -/
def ovrEnabled (s : State) : Bool := s.sync && s.idx == 14

/-- `RX.SCAN` of a byte is enabled (spec/40_framesync.md R80). -/
def scanEnabled (b : Byte) (s : State) : Bool := !s.sync && !completesEscape b s.escD

/-- `RX.RESYNC` is enabled once the byte 0xFF is received (spec/40_framesync.md R80). -/
def resyncEnabled (s : State) : Bool := !s.sync && s.escD

/-- `DISPATCH` is enabled (spec/41_dispatch.md R90, subject to `MAIN_PRIORITY`, spec/43_watchdog.md R115). -/
def dispatchEnabled (s : State) : Bool :=
  s.mphase == .run && s.ready && (!s.fail || s.cfg.priority != .failFirst)

/-- `REC.ENTER` is enabled (spec/43_watchdog.md R112, subject to `MAIN_PRIORITY`, R115). -/
def recEnterEnabled (s : State) : Bool :=
  s.mphase == .run && s.fail && (!s.ready || s.cfg.priority != .readyFirst)

/-- `REC.ITER` is enabled (spec/43_watchdog.md R113). -/
def recIterEnabled (s : State) : Bool := s.mphase == .recovery && s.fail

/-- `REC.EXIT` is enabled (spec/43_watchdog.md R114). -/
def recExitEnabled (s : State) : Bool := s.mphase == .recovery && !s.fail

/-- `IDLE` is enabled (spec/43_watchdog.md R116). -/
def idleEnabled (s : State) : Bool := s.mphase == .run && !s.fail && !s.ready

/-- `TICK` is enabled (spec/43_watchdog.md R110). -/
def tickEnabled (s : State) : Bool := decide (s.tcnt + 1 < s.cfg.tTimeout)

/-- `TICK.EXPIRE` is enabled (spec/43_watchdog.md R111). -/
def expireEnabled (s : State) : Bool := s.tcnt + 1 == s.cfg.tTimeout

end Sys2Proof.Machine
end

