-- ==== Sys2Proof/Machine/Operands.lean ====
section
/-! DEFINITION. Operand assembly: the fields of a frame as values (spec/30_encoding.md R60, R63 to R65), the checksum
(spec/41_dispatch.md R94) and the pulse-width mapper (spec/42_pwm.md R100). -/

namespace Sys2Proof

/-- The position byte of a channel: byte i of the frame for channel i (spec/30_encoding.md R60). -/
def Frame.pos (f : Frame) : Channel → Byte
  | .ch1 => f.pos1
  | .ch2 => f.pos2
  | .ch3 => f.pos3
  | .ch4 => f.pos4
  | .ch5 => f.pos5
  | .ch6 => f.pos6

/-- `Chk`: the exclusive-or of bytes 1 to 8 (spec/30_encoding.md R65, spec/41_dispatch.md R94). -/
def Frame.checksum (f : Frame) : Byte :=
  f.pos1 ^^^ f.pos2 ^^^ f.pos3 ^^^ f.pos4 ^^^ f.pos5 ^^^ f.pos6 ^^^ f.sw ^^^ f.rsv

/-- The checksum test of spec/30_encoding.md R65. -/
def Frame.chkOk (f : Frame) : Bool := f.checksum == f.chk

/-- The marker test of spec/41_dispatch.md R90. -/
def Frame.markerOk (f : Frame) : Bool := f.marker == Machine.marker

/-- The fourteen bytes in wire order (spec/20_memory.md R43). -/
def Frame.bytes (f : Frame) : List Byte :=
  [f.marker, f.pos1, f.pos2, f.pos3, f.pos4, f.pos5, f.pos6, f.sw, f.rsv, f.chk, f.pad0, f.pad1, f.pad2, f.pad3]

namespace Machine

/-- `Map(p)` = `min(p, 156) * 8` (spec/42_pwm.md R100): clip first, then scale. -/
def mapOffset (p : Byte) : Nat := min p.toNat posClip * posScale

/-- Digital output A of a switch byte: bit 6 (spec/30_encoding.md R64, spec/42_pwm.md R103). -/
def switchA (b : Byte) : Bool := (b &&& swAMask) != 0#8

/-- Digital output B of a switch byte: bit 7 (spec/30_encoding.md R64, spec/42_pwm.md R103; spec/90_conflicts.md C4). -/
def switchB (b : Byte) : Bool := (b &&& swBMask) != 0#8

end Machine

end Sys2Proof
end

