-- ==== Sys2Proof/Machine/Ops.lean ====
section
/-! DEFINITION. The named operations over the buffer, the registers and the streams; raising an error class
(spec/60_exceptions.md R121 to R124) and the return from Framing and Silence; the outcomes of reception and dispatch that
several rows of the opcode table share. -/

namespace Sys2Proof.Machine

/-- What a meaning answers. -/
abbrev Out := Host.Outcome State Fault Refusal

/-- The outcome of an operation whose enabling condition is `c`: without it there is no transition. -/
def whenEnabled (mnemonic : String) (c : Bool) (o : Out) : Out := if c then o else .refused (.notEnabled mnemonic)

-- The buffer (spec/20_memory.md R40).

/-- The byte last written at an address, if any was since reset. -/
def Memory.read : Memory → Nat → Option Byte
  | [], _ => none
  | (k, v) :: rest, a => if k = a then some v else Memory.read rest a

/-- Write one byte, keeping the addresses strictly rising. -/
def Memory.write : Memory → Nat → Byte → Memory
  | [], a, b => [(a, b)]
  | (k, v) :: rest, a, b =>
    if a < k then (a, b) :: (k, v) :: rest
    else if a = k then (a, b) :: rest
    else (k, v) :: Memory.write rest a b

/-- The canonical form: addresses strictly rising, none of them outside 0..13. An unlisted address reads as "not written
since reset", which no entry can equal. -/
abbrev Memory.wf (m : Memory) : Prop :=
  m.Pairwise (fun c d => c.1 < d.1) ∧ ∀ c ∈ m, c.1 < frameLen

/-- `buf[a]`: the byte written there, or the free power-on byte (spec/10_state.md R11, assumption 4). -/
def bufAt (s : State) (a : Nat) : Byte := (s.buf.read a).getD (Config.powerOnByte s.epoch a)

/-- `MemWrite(a, 1, b)`: defined for 0 ≤ a ≤ 13 only (spec/20_memory.md R40). -/
def memWrite (a : Nat) (b : Byte) (s : State) : Out :=
  if a < frameLen then .next { s with buf := s.buf.write a b } else .fault (.bufferAddress a)

/-- The fourteen bytes of the buffer, cell 0 first. -/
def bufBytes (s : State) : List Byte :=
  [bufAt s 0, bufAt s 1, bufAt s 2, bufAt s 3, bufAt s 4, bufAt s 5, bufAt s 6, bufAt s 7, bufAt s 8, bufAt s 9,
    bufAt s 10, bufAt s 11, bufAt s 12, bufAt s 13]

/-- The buffer read as a frame (spec/20_memory.md R41). The meanings read its bytes 0 to 9 only. -/
def frameOf (s : State) : Frame :=
  ⟨bufAt s 0, bufAt s 1, bufAt s 2, bufAt s 3, bufAt s 4, bufAt s 5, bufAt s 6, bufAt s 7, bufAt s 8, bufAt s 9,
    bufAt s 10, bufAt s 11, bufAt s 12, bufAt s 13⟩

-- The channel registers (spec/10_state.md R12, R22).

/-- Read one channel. -/
def Channels.get (v : Channels) : Channel → Nat
  | .ch1 => v.c1
  | .ch2 => v.c2
  | .ch3 => v.c3
  | .ch4 => v.c4
  | .ch5 => v.c5
  | .ch6 => v.c6

/-- Write one channel. -/
def Channels.set (v : Channels) (c : Channel) (x : Nat) : Channels :=
  match c with
  | .ch1 => { v with c1 := x }
  | .ch2 => { v with c2 := x }
  | .ch3 => { v with c3 := x }
  | .ch4 => { v with c4 := x }
  | .ch5 => { v with c5 := x }
  | .ch6 => { v with c6 := x }

/-- The channels in the order 1 to 6. -/
def channelList : List Channel := [.ch1, .ch2, .ch3, .ch4, .ch5, .ch6]

/-- `MIN_PULSE - off` written to one channel (spec/42_pwm.md R101); it never borrows, as `off` ≤ 1248 ≤ `MIN_PULSE`. -/
def Channels.setOffset (cfg : Config) (v : Channels) (c : Channel) (off : Nat) : Channels := v.set c (cfg.minPulse - off)

/-- `SetChannel(i, off)`: `pw[i] <- MIN_PULSE - off` (spec/42_pwm.md R101). -/
def setChannel (c : Channel) (off : Nat) (s : State) : State := { s with pw := s.pw.setOffset s.cfg c off }

/-- `SetChannel(i, off)` for an offset above 1248: R101 states no result there, so the register takes a free value of its
width and the next call draws another (assumption 7). -/
def setChannelFree (c : Channel) (s : State) : State :=
  { s with pw := s.pw.set c (Config.freeCompare s.draw % 2 ^ s.cfg.pwWidth), draw := s.draw + 1 }

/-- `NeutralizeAll()`: `pw[i] <- MIN_PULSE` for every channel (spec/42_pwm.md R102). -/
def neutralizeAll (s : State) : State := { s with pw := Channels.fill s.cfg.minPulse }

/-- `SetDigitalOutputs(b)` (spec/42_pwm.md R103). -/
def setDigitalOutputs (b : Byte) (s : State) : State := { s with doutA := switchA b, doutB := switchB b }

/-- `PERIOD(i)`: `pwa[i] <- pw[i]` (spec/42_pwm.md R104). -/
def commitChannel (c : Channel) (s : State) : State := { s with pwa := s.pwa.set c (s.pw.get c) }

-- The streams (spec/10_state.md R24).

/-- `Tx(b)`: append one byte to the outbound log. It never blocks and never drops (R24). -/
def transmit (b : Byte) (s : State) : State := { s with tx := s.tx ++ [b] }

/-- What every received byte does first: the echo and the timer reset (spec/40_framesync.md R80). -/
def receive (b : Byte) (s : State) : State := { transmit b s with tcnt := 0 }

-- Error classes (spec/60_exceptions.md). This block's exceptions save nothing and transfer no control (R127).

/-- The four error classes of spec/60_exceptions.md R120. -/
inductive ErrorClass where
  | framing
  | checksum
  | silence
  | overrun
deriving DecidableEq, Repr

/-- `raise <class>`: exactly the effects of spec/60_exceptions.md R121, R122, R123 and R124. -/
def raiseError : ErrorClass → State → State
  | .framing, s => { transmit nakSync s with sync := false }
  | .checksum, s => transmit nakChk s
  | .silence, s => { s with fail := true }
  | .overrun, s => { s with ovr := true }

/-- `esc_e <- 0; esc_n <- 0; esc_d <- 0`. -/
def clearProgress (s : State) : State := { s with escE := false, escN := false, escD := false }

/-- The return from Framing and from Silence: the resynchronization (spec/60_exceptions.md R128, R130;
spec/40_framesync.md R84). -/
def resync (s : State) : State := clearProgress { receive escByteFF s with sync := true, idx := 0, fail := false }

-- Reception (spec/40_framesync.md).

/-- `idx <- idx + 1; if idx = 14 then ready <- 1` (R81). -/
def advanceIdx (s : State) : State := { s with idx := idxSucc s.idx, ready := readyAfter (idxSucc s.idx) s.ready }

/-- Store one frame byte (R81): echo and timer reset, `buf[idx] <- b`, advance. -/
def append (b : Byte) (s : State) : Out :=
  match memWrite s.idx.val b (receive b s) with
  | .next t => .next (advanceIdx t)
  | .fault r => .fault r
  | .refused r => .refused r

/-- A byte that arrives while a complete frame waits is echoed and dropped (R82). -/
def overrun (b : Byte) (s : State) : State := raiseError .overrun (receive b s)

/-- Examine a byte for the escape sequence (R83). -/
def scan (b : Byte) (s : State) : State :=
  { receive b s with
    sync := false
    escE := escEAfter b s.escE
    escN := escNAfter b s.escE s.escN
    escD := escDAfter b s.escN s.escD }

/-- A byte received while Searching: it completes the escape sequence or it does not (R80). -/
def search (b : Byte) (s : State) : State := if completesEscape b s.escD then resync s else scan b s

-- Dispatch (spec/41_dispatch.md).

/-- Step 1 of every dispatch: `idx <- 0; ready <- 0; tcnt <- 0` (R90). -/
def consume (s : State) : State := { s with idx := 0, ready := false, tcnt := 0 }

/-- Framing error: the frame is discarded (R91). -/
def rejectFraming (s : State) : State := raiseError .framing (consume s)

/-- Checksum error: the frame is discarded (R92). -/
def rejectChecksum (s : State) : State := raiseError .checksum (consume s)

/-- `for i in 1..6: SetChannel(i, Map(buf[i]))`, in that order (R93). -/
def applyPositions (f : Frame) (s : State) : State :=
  { s with pw := channelList.foldl (fun v c => v.setOffset s.cfg c (mapOffset (f.pos c))) s.pw }

/-- The frame is accepted and applied (R93). -/
def acceptFrame (f : Frame) (s : State) : State :=
  clearProgress <| setDigitalOutputs f.sw <| applyPositions f <| transmit ackOk <| consume s

/-- The three outcomes of one dispatch, in their priority (R90). -/
def dispatchFrame (f : Frame) (s : State) : State :=
  if f.markerOk = false ∨ s.sync = false then rejectFraming s
  else if f.chkOk then acceptFrame f s
  else rejectChecksum s

-- The watchdog (spec/43_watchdog.md).

/-- The tick that reaches the threshold (R111). -/
def expire (s : State) : State := { raiseError .silence s with tcnt := 0 }

end Sys2Proof.Machine
end

