-- ==== Sys2Proof/Machine/Dispatcher.lean ====
section
/-! DEFINITION. Meanings of the command-frame validator and dispatcher (spec/41_dispatch.md). The FRAME14 rows take their
operands from the decoded frame, the EVENT rows from the buffer (assumption 8). -/

namespace Sys2Proof.Machine

/-- `CMD`: a frame dispatched with `sync` = 1, a good marker and a good checksum; executes `DISP.G` (R93). -/
def execCmd (f : Frame) (s : State) : Out :=
  whenEnabled "CMD" (dispatchEnabled s && s.sync && f.markerOk && f.chkOk) (.next (acceptFrame f s))

/-- `CMD.BADCHK`: a frame dispatched with `sync` = 1, a good marker and a bad checksum; executes `DISP.K` (R92). -/
def execCmdBadchk (f : Frame) (s : State) : Out :=
  whenEnabled "CMD.BADCHK" (dispatchEnabled s && s.sync && f.markerOk && !f.chkOk) (.next (rejectChecksum s))

/-- `CMD.BADMARKER`: a frame dispatched with a bad marker or with `sync` = 0; executes `DISP.S` (R91). -/
def execCmdBadmarker (f : Frame) (s : State) : Out :=
  whenEnabled "CMD.BADMARKER" (dispatchEnabled s && (!f.markerOk || !s.sync)) (.next (rejectFraming s))

/-- `DISPATCH`: step 1 and exactly one of the three outcomes (R90). -/
def execDispatch (s : State) : Out :=
  whenEnabled "DISPATCH" (dispatchEnabled s) (.next (dispatchFrame (frameOf s) s))

/-- `DISP.S` (R91). -/
def execDispS (s : State) : Out :=
  whenEnabled "DISP.S" (dispatchEnabled s && (!(frameOf s).markerOk || !s.sync)) (.next (rejectFraming s))

/-- `DISP.K` (R92). -/
def execDispK (s : State) : Out :=
  whenEnabled "DISP.K" (dispatchEnabled s && s.sync && (frameOf s).markerOk && !(frameOf s).chkOk)
    (.next (rejectChecksum s))

/-- `DISP.G` (R93). -/
def execDispG (s : State) : Out :=
  whenEnabled "DISP.G" (dispatchEnabled s && s.sync && (frameOf s).markerOk && (frameOf s).chkOk)
    (.next (acceptFrame (frameOf s) s))

/-- `CHK`, called, not fired: the exclusive-or of `buf[1..8]` (R94), left in the model's own `ret` (assumption 10). -/
def execChk (s : State) : Out := .next { s with ret := (frameOf s).checksum.toNat }

end Sys2Proof.Machine
end

