-- ==== Sys2Proof/Machine/FrameSync.lean ====
section
/-! DEFINITION. Meanings of the RX agent's operations and of the inbound bytes (spec/40_framesync.md). A BYTE_IN row is
the reception of its byte in the link states that select the row (spec/30_encoding.md R75; assumption 8). -/

namespace Sys2Proof.Machine

/-- `RX(b)`: always enabled; exactly one of the four operations, chosen by the state before it (R80). -/
def execRx (b : Byte) (s : State) : Out :=
  if s.sync then (if s.idx.val ≤ 13 then append b s else .next (overrun b s)) else .next (search b s)

/-- `RX.APPEND` (R81). -/
def execRxAppend (b : Byte) (s : State) : Out := whenEnabled "RX.APPEND" (appendEnabled s) (append b s)

/-- `RX.OVR` (R82). -/
def execRxOvr (b : Byte) (s : State) : Out := whenEnabled "RX.OVR" (ovrEnabled s) (.next (overrun b s))

/-- `RX.SCAN` (R83). -/
def execRxScan (b : Byte) (s : State) : Out := whenEnabled "RX.SCAN" (scanEnabled b s) (.next (scan b s))

/-- `RX.RESYNC`; its byte is 0xFF (R84). -/
def execRxResync (s : State) : Out := whenEnabled "RX.RESYNC" (resyncEnabled s) (.next (resync s))

/-- `ESC.E`: the letter E while Searching sets `esc_e` (R83). -/
def execEscE (s : State) : Out := whenEnabled "ESC.E" (!s.sync) (.next (search escByteE s))

/-- `ESC.N`: the letter N while Searching sets `esc_n` if `esc_e` is set, "otherwise no effect on flags" (R83). -/
def execEscN (s : State) : Out := whenEnabled "ESC.N" (!s.sync) (.next (search escByteN s))

/-- `ESC.D`: the letter D while Searching sets `esc_d` if `esc_n` is set, "otherwise no effect on flags" (R83). -/
def execEscD (s : State) : Out := whenEnabled "ESC.D" (!s.sync) (.next (search escByteD s))

/-- `ESC.FF`: the byte 255 while Searching resynchronizes if `esc_d` is set, "otherwise no effect on flags" (R83, R84). -/
def execEscFF (s : State) : Out := whenEnabled "ESC.FF" (!s.sync) (.next (search escByteFF s))

/-- Is a byte received in this state noise: Searching, and none of the four conditions of spec/30_encoding.md R67 met? -/
def noiseSelected (b : Byte) (s : State) : Bool :=
  !s.sync && b != escByteE && !(b == escByteN && s.escE) && !(b == escByteD && s.escN) && !(b == escByteFF && s.escD)

/-- `NOISE`: echo and timer reset only (R83). -/
def execNoise (b : Byte) (s : State) : Out := whenEnabled "NOISE" (noiseSelected b s) (.next (search b s))

/-- `DATA`: a frame byte while Synchronized (R81). -/
def execData (b : Byte) (s : State) : Out := whenEnabled "DATA" (appendEnabled s) (append b s)

/-- `OVERRUN`: a byte while a complete frame waits (R82). -/
def execOverrun (b : Byte) (s : State) : Out := whenEnabled "OVERRUN" (ovrEnabled s) (.next (overrun b s))

end Sys2Proof.Machine
end

