-- ==== Sys2Proof/Machine/Outbound.lean ====
section
/-! DEFINITION. Meanings of the outbound bytes (spec/30_encoding.md R62): each is the `Tx` of its byte, which the
operation named in the row performs (assumption 9). -/

namespace Sys2Proof.Machine

/-- `ACK.G`: frame accepted and applied (spec/41_dispatch.md R93). -/
def execAckG (s : State) : Out := .next (transmit ackOk s)

/-- `NAK.K`: checksum failure (spec/41_dispatch.md R92). -/
def execNakK (s : State) : Out := .next (transmit nakChk s)

/-- `NAK.S`: not synchronized or bad marker (spec/41_dispatch.md R91). -/
def execNakS (s : State) : Out := .next (transmit nakSync s)

/-- `ECHO`: the received byte itself (spec/40_framesync.md R80). -/
def execEcho (b : Byte) (s : State) : Out := .next (transmit b s)

end Sys2Proof.Machine
end

