-- ==== Sys2Proof/Machine/Pwm.lean ====
section
/-! DEFINITION. Meanings of the pulse-width mapper and the PWM actuation engine (spec/42_pwm.md). -/

namespace Sys2Proof.Machine

/-- `PERIOD(i)`: always enabled (R104). -/
def execPeriod (c : Channel) (s : State) : Out := .next (commitChannel c s)

/-- `MAP`, called, not fired: `min(p, 156) * 8` (R100), left in the model's own `ret` (assumption 10). -/
def execMap (p : Byte) (s : State) : Out := .next { s with ret := mapOffset p }

/-- `SETCHANNEL`, called, not fired (R101): exact for offsets 0 to 1248, a free value above
(assumption 7). -/
def execSetChannel (c : Channel) (off : Nat) (s : State) : Out :=
  if off ≤ maxOffset then .next (setChannel c off s) else .next (setChannelFree c s)

/-- `NEUTRALIZEALL`, called, not fired (R102). -/
def execNeutralizeAll (s : State) : Out := .next (neutralizeAll s)

/-- `SETDIGITALOUTPUTS`, called, not fired (R103). -/
def execSetDigitalOutputs (b : Byte) (s : State) : Out := .next (setDigitalOutputs b s)

end Sys2Proof.Machine
end

