-- ==== Sys2Proof/Machine/Reset.lean ====
section
/-! DEFINITION. The meaning of RESET (spec/70_reset_and_hazards.md R140). -/

namespace Sys2Proof.Machine

/-- `RESET`, from any state: every element of the spec's state takes its reset value; the configuration stays, and so do
the model's own fields, but that a new epoch begins, in which the cells of `buf` are unspecified anew (assumption 14). -/
def execReset (s : State) : Out :=
  .next { State.resetOf s.cfg with sched := s.sched, draw := s.draw, epoch := s.epoch + 1, ret := s.ret }

end Sys2Proof.Machine
end

