-- ==== Sys2Proof/Machine/Watchdog.lean ====
section
/-! DEFINITION. Meanings of the timer, the recovery phase and the idle step (spec/43_watchdog.md). -/

namespace Sys2Proof.Machine

/-- `TICK` (R110). -/
def execTick (s : State) : Out := whenEnabled "TICK" (tickEnabled s) (.next { s with tcnt := s.tcnt + 1 })

/-- `TICK.EXPIRE` (R111). -/
def execTickExpire (s : State) : Out := whenEnabled "TICK.EXPIRE" (expireEnabled s) (.next (expire s))

/-- `REC.ENTER`: neutralize once and enter the recovery phase (R112). -/
def execRecEnter (s : State) : Out :=
  whenEnabled "REC.ENTER" (recEnterEnabled s) (.next { neutralizeAll s with mphase := .recovery })

/-- `REC.ITER`: one iteration forces the link unsynchronized, without progress (R113). -/
def execRecIter (s : State) : Out :=
  whenEnabled "REC.ITER" (recIterEnabled s) (.next (clearProgress { s with sync := false }))

/-- `REC.EXIT`: the return from the recovery phase (R114). -/
def execRecExit (s : State) : Out := whenEnabled "REC.EXIT" (recExitEnabled s) (.next { s with mphase := .run })

/-- `IDLE`: no state change (R116). -/
def execIdle (s : State) : Out := whenEnabled "IDLE" (idleEnabled s) (.next s)

end Sys2Proof.Machine
end

