-- ==== Sys2Proof/Machine/Dispatch.lean ====
section
/-! DEFINITION. One arm per constructor of Instr. -/

namespace Sys2Proof.Machine

def exec (i : Instr) (s : State) : Host.Outcome State Fault Refusal :=
  match i with
  | .cmd f => Sys2Proof.Machine.execCmd f s
  | .cmdBadchk f => Sys2Proof.Machine.execCmdBadchk f s
  | .cmdBadmarker f => Sys2Proof.Machine.execCmdBadmarker f s
  | .escE => Sys2Proof.Machine.execEscE s
  | .escN => Sys2Proof.Machine.execEscN s
  | .escD => Sys2Proof.Machine.execEscD s
  | .escFF => Sys2Proof.Machine.execEscFF s
  | .noise b => Sys2Proof.Machine.execNoise b s
  | .data b => Sys2Proof.Machine.execData b s
  | .overrun b => Sys2Proof.Machine.execOverrun b s
  | .ackG => Sys2Proof.Machine.execAckG s
  | .nakK => Sys2Proof.Machine.execNakK s
  | .nakS => Sys2Proof.Machine.execNakS s
  | .echo b => Sys2Proof.Machine.execEcho b s
  | .rx b => Sys2Proof.Machine.execRx b s
  | .rxAppend b => Sys2Proof.Machine.execRxAppend b s
  | .rxOvr b => Sys2Proof.Machine.execRxOvr b s
  | .rxScan b => Sys2Proof.Machine.execRxScan b s
  | .rxResync => Sys2Proof.Machine.execRxResync s
  | .dispatch => Sys2Proof.Machine.execDispatch s
  | .dispS => Sys2Proof.Machine.execDispS s
  | .dispK => Sys2Proof.Machine.execDispK s
  | .dispG => Sys2Proof.Machine.execDispG s
  | .tick => Sys2Proof.Machine.execTick s
  | .tickExpire => Sys2Proof.Machine.execTickExpire s
  | .recEnter => Sys2Proof.Machine.execRecEnter s
  | .recIter => Sys2Proof.Machine.execRecIter s
  | .recExit => Sys2Proof.Machine.execRecExit s
  | .idle => Sys2Proof.Machine.execIdle s
  | .period c => Sys2Proof.Machine.execPeriod c s
  | .reset => Sys2Proof.Machine.execReset s
  | .map p => Sys2Proof.Machine.execMap p s
  | .chk => Sys2Proof.Machine.execChk s
  | .setChannel c off => Sys2Proof.Machine.execSetChannel c off s
  | .neutralizeAll => Sys2Proof.Machine.execNeutralizeAll s
  | .setDigitalOutputs b => Sys2Proof.Machine.execSetDigitalOutputs b s

end Sys2Proof.Machine
end

