-- ==== Sys2Proof/WellFormed.lean ====
section
/-! DEFINITION. Which terms of `Instr` are instructions of the spec: the part of a row's condition that speaks of the
operands alone. -/

namespace Sys2Proof

/-- Well-formedness of an instruction, constructor by constructor. A `CMD.BADMARKER` frame may hold any marker, since the
row also stands for a frame dispatched while `sync` = 0 (spec/opcode_table.json). The byte 0x45 is never noise: the
condition of `ESC.E` is `sync` = 0 alone (spec/30_encoding.md R67). The offset of `SETCHANNEL` is R101's operand range; the
meaning runs outside it too (assumption 7). -/
def Instr.wf : Instr → Bool
  | .cmd f => f.markerOk && f.chkOk
  | .cmdBadchk f => f.markerOk && !f.chkOk
  | .cmdBadmarker _ => true
  | .escE => true
  | .escN => true
  | .escD => true
  | .escFF => true
  | .noise b => b != Machine.escByteE
  | .data _ => true
  | .overrun _ => true
  | .ackG => true
  | .nakK => true
  | .nakS => true
  | .echo _ => true
  | .rx _ => true
  | .rxAppend _ => true
  | .rxOvr _ => true
  | .rxScan _ => true
  | .rxResync => true
  | .dispatch => true
  | .dispS => true
  | .dispK => true
  | .dispG => true
  | .tick => true
  | .tickExpire => true
  | .recEnter => true
  | .recIter => true
  | .recExit => true
  | .idle => true
  | .period _ => true
  | .reset => true
  | .map _ => true
  | .chk => true
  | .setChannel _ off => decide (off ≤ Machine.maxOffset)
  | .neutralizeAll => true
  | .setDigitalOutputs _ => true

end Sys2Proof
end

