-- ==== Sys2Proof/Decode.lean ====
section
/-! DEFINITION. The decoder, total on any bytes, and after it the encoder. What a byte is depends on the link state
(spec/30_encoding.md R66), so the decoder takes the state bits it depends on. Operations of format EVENT have no wire
encoding (R75): a byte string never decodes to one, and which one an event fires is Machine/Fetch.lean's. -/

namespace Sys2Proof

/-- The formats of spec/opcode_table.json (spec/30_encoding.md R75). -/
inductive Format where
  | frame14
  | byteIn
  | byteOut
  | event
deriving DecidableEq, Repr

/-- The state bits that decoding depends on (spec/30_encoding.md R66, R67). -/
structure DecodeCtx where
  /-- `sync` -/
  sync : Bool
  /-- `idx` = 14: a complete frame waits. -/
  full : Bool
  /-- `esc_e` -/
  escE : Bool
  /-- `esc_n` -/
  escN : Bool
  /-- `esc_d` -/
  escD : Bool
deriving DecidableEq, Repr

/-- Why a byte string is no encoding of a format. -/
inductive DecodeError where
  /-- Fewer than 14 bytes: a frame is complete only at its fourteenth byte (spec/30_encoding.md R69). -/
  | frameTooShort
  /-- No byte at all. -/
  | noByte
  /-- An EVENT row has no wire encoding (spec/30_encoding.md R75). -/
  | noWireEncoding
deriving DecidableEq, Repr

/-- What a received byte is (spec/30_encoding.md R66, R67): data or an overrun byte while Synchronized; while Searching
the member of the escape sequence whose condition is met, and otherwise noise. -/
def decodeByteIn (c : DecodeCtx) (b : Byte) : Instr :=
  if c.sync then
    if c.full then .overrun b else .data b
  else if b = Machine.escByteE then .escE
  else if b = Machine.escByteN ∧ c.escE = true then .escN
  else if b = Machine.escByteD ∧ c.escN = true then .escD
  else if b = Machine.escByteFF ∧ c.escD = true then .escFF
  else .noise b

/-- What a sent byte is (spec/30_encoding.md R62). An echo of an acknowledgement value cannot be told from the
acknowledgement (spec/70_reset_and_hazards.md R153) and is read as the acknowledgement. -/
def decodeByteOut (b : Byte) : Instr :=
  if b = Machine.ackOk then .ackG
  else if b = Machine.nakChk then .nakK
  else if b = Machine.nakSync then .nakS
  else .echo b

/-- What a complete frame is at its dispatch (spec/41_dispatch.md R90): the marker and synchronization test has priority
over the checksum test. -/
def decodeFrame (sync : Bool) (f : Frame) : Instr :=
  if f.markerOk = false ∨ sync = false then .cmdBadmarker f
  else if f.chkOk then .cmd f
  else .cmdBadchk f

/-- The frame that fourteen bytes make, and the bytes after it (spec/20_memory.md R43: byte 0 is the first). -/
def takeFrame : List Byte → Except DecodeError (Frame × List Byte)
  | b0 :: b1 :: b2 :: b3 :: b4 :: b5 :: b6 :: b7 :: b8 :: b9 :: b10 :: b11 :: b12 :: b13 :: rest =>
    .ok (⟨b0, b1, b2, b3, b4, b5, b6, b7, b8, b9, b10, b11, b12, b13⟩, rest)
  | _ => .error .frameTooShort

/-- The decoder: an instruction and the bytes after it, or the reason there is none. -/
def decode (c : DecodeCtx) (fmt : Format) (bytes : List Byte) : Except DecodeError (Instr × List Byte) :=
  match fmt with
  | .frame14 =>
    match takeFrame bytes with
    | .ok (f, rest) => .ok (decodeFrame c.sync f, rest)
    | .error e => .error e
  | .byteIn =>
    match bytes with
    | b :: rest => .ok (decodeByteIn c b, rest)
    | [] => .error .noByte
  | .byteOut =>
    match bytes with
    | b :: rest => .ok (decodeByteOut b, rest)
    | [] => .error .noByte
  | .event => .error .noWireEncoding

/-- Bytes per format (0 for an event, which has no encoding). -/
def Format.length : Format → Nat
  | .frame14 => Machine.frameLen
  | .byteIn => 1
  | .byteOut => 1
  | .event => 0

/-- The format of an instruction's row. -/
def Instr.format : Instr → Format
  | .cmd _ => .frame14
  | .cmdBadchk _ => .frame14
  | .cmdBadmarker _ => .frame14
  | .escE => .byteIn
  | .escN => .byteIn
  | .escD => .byteIn
  | .escFF => .byteIn
  | .noise _ => .byteIn
  | .data _ => .byteIn
  | .overrun _ => .byteIn
  | .ackG => .byteOut
  | .nakK => .byteOut
  | .nakS => .byteOut
  | .echo _ => .byteOut
  | .rx _ => .event
  | .rxAppend _ => .event
  | .rxOvr _ => .event
  | .rxScan _ => .event
  | .rxResync => .event
  | .dispatch => .event
  | .dispS => .event
  | .dispK => .event
  | .dispG => .event
  | .tick => .event
  | .tickExpire => .event
  | .recEnter => .event
  | .recIter => .event
  | .recExit => .event
  | .idle => .event
  | .period _ => .event
  | .reset => .event
  | .map _ => .event
  | .chk => .event
  | .setChannel _ _ => .event
  | .neutralizeAll => .event
  | .setDigitalOutputs _ => .event

/-- The encoder: the bytes of an instruction in wire order; none for an EVENT row (spec/30_encoding.md R60 to R62, R75). -/
def encode : Instr → List Byte
  | .cmd f => f.bytes
  | .cmdBadchk f => f.bytes
  | .cmdBadmarker f => f.bytes
  | .escE => [Machine.escByteE]
  | .escN => [Machine.escByteN]
  | .escD => [Machine.escByteD]
  | .escFF => [Machine.escByteFF]
  | .noise b => [b]
  | .data b => [b]
  | .overrun b => [b]
  | .ackG => [Machine.ackOk]
  | .nakK => [Machine.nakChk]
  | .nakS => [Machine.nakSync]
  | .echo b => [b]
  | .rx _ => []
  | .rxAppend _ => []
  | .rxOvr _ => []
  | .rxScan _ => []
  | .rxResync => []
  | .dispatch => []
  | .dispS => []
  | .dispK => []
  | .dispG => []
  | .tick => []
  | .tickExpire => []
  | .recEnter => []
  | .recIter => []
  | .recExit => []
  | .idle => []
  | .period _ => []
  | .reset => []
  | .map _ => []
  | .chk => []
  | .setChannel _ _ => []
  | .neutralizeAll => []
  | .setDigitalOutputs _ => []

/-- `ESC`, the escape sequence: the letters E, N, D and 255, in this order (spec/30_encoding.md R61, R74). -/
def escSequence : List Byte := [Machine.escByteE, Machine.escByteN, Machine.escByteD, Machine.escByteFF]

/-- `CMD p1 p2 p3 p4 p5 p6 sw rsv`: the pseudo-instruction of spec/30_encoding.md R74, a frame with the right marker and
checksum and zero padding. -/
def commandFrame (p1 p2 p3 p4 p5 p6 sw rsv : Byte) : Frame :=
  let f : Frame := ⟨Machine.marker, p1, p2, p3, p4, p5, p6, sw, rsv, 0, 0, 0, 0, 0⟩
  { f with chk := f.checksum }

/-- In which link states a row of a wire format is the one its bytes select (the `when` of spec/opcode_table.json, the
part that speaks of the state). An echoed acknowledgement value is never selected as an echo. -/
def Instr.selectedIn (c : DecodeCtx) : Instr → Bool
  | .cmd _ => c.sync
  | .cmdBadchk _ => c.sync
  | .cmdBadmarker f => !f.markerOk || !c.sync
  | .escE => !c.sync
  | .escN => !c.sync && c.escE
  | .escD => !c.sync && c.escN
  | .escFF => !c.sync && c.escD
  | .noise b =>
    !c.sync && !(b == Machine.escByteN && c.escE) && !(b == Machine.escByteD && c.escN) &&
      !(b == Machine.escByteFF && c.escD)
  | .data _ => c.sync && !c.full
  | .overrun _ => c.sync && c.full
  | .ackG => true
  | .nakK => true
  | .nakS => true
  | .echo b => b != Machine.ackOk && b != Machine.nakChk && b != Machine.nakSync
  | .rx _ => false
  | .rxAppend _ => false
  | .rxOvr _ => false
  | .rxScan _ => false
  | .rxResync => false
  | .dispatch => false
  | .dispS => false
  | .dispK => false
  | .dispG => false
  | .tick => false
  | .tickExpire => false
  | .recEnter => false
  | .recIter => false
  | .recExit => false
  | .idle => false
  | .period _ => false
  | .reset => false
  | .map _ => false
  | .chk => false
  | .setChannel _ _ => false
  | .neutralizeAll => false
  | .setDigitalOutputs _ => false

/-- The `n` bytes of a table word in wire order: byte 0 is the leftmost, the most significant (spec/30_encoding.md R75). -/
def bytesOfNat : Nat → Nat → List Byte
  | 0, _ => []
  | n + 1, w => BitVec.ofNat 8 (w / 256 ^ n) :: bytesOfNat n w

/-- The link state a table word is read in: Searching with all progress flags set for an inbound byte, so that each of
the four escape bytes selects its own row; Synchronized for a frame (assumption 13). -/
def tableCtx (fmt : Format) : DecodeCtx :=
  match fmt with
  | .frame14 => ⟨true, true, false, false, false⟩
  | .byteIn => ⟨false, false, true, true, true⟩
  | .byteOut => ⟨true, false, false, false, false⟩
  | .event => ⟨true, false, false, false, false⟩

/-- The format a table word of `nbits` bits is read in: fourteen bytes are a frame; one byte that is an acknowledgement
value is an outbound byte, any other byte an inbound one; no other length is an encoding (assumption 13). -/
def tableFormat (nbits w : Nat) : Option Format :=
  if nbits = 112 then some .frame14
  else if nbits = 8 then
    (if BitVec.ofNat 8 w = Machine.ackOk ∨ BitVec.ofNat 8 w = Machine.nakChk ∨ BitVec.ofNat 8 w = Machine.nakSync then
      some .byteOut
    else some .byteIn)
  else none

/-- The instruction the decoder reads from a word written as spec/opcode_table.json writes it (spec/30_encoding.md R75). -/
def decodeTableWord (nbits w : Nat) : Option Instr :=
  match tableFormat nbits w with
  | none => none
  | some fmt =>
    match decode (tableCtx fmt) fmt (bytesOfNat fmt.length w) with
    | .ok (i, _) => some i
    | .error _ => none

end Sys2Proof
end

