-- ==== Sys2Proof/Machine/Fetch.lean ====
section
/-! DEFINITION. Which operation an event fires: the analogue of an instruction fetch (spec/20_memory.md R53,
spec/30_encoding.md R66, spec/43_watchdog.md R115). -/

namespace Sys2Proof.Machine

/-- The state bits that decoding depends on (spec/30_encoding.md R66, R67). -/
def decodeCtx (s : State) : DecodeCtx := ⟨s.sync, s.idx == 14, s.escE, s.escN, s.escD⟩

/-- What the main sequencer does next. -/
inductive MainStep where
  | dispatch
  | enter
  | iter
  | exit
  | idle
deriving DecidableEq, Repr

/-- The main sequencer's next step (spec/43_watchdog.md R115). The environment's pick settles the one case in which two
steps are enabled. -/
def mainStep (pick : MainChoice) (s : State) : MainStep :=
  if recIterEnabled s then .iter
  else if recExitEnabled s then .exit
  else if dispatchEnabled s && recEnterEnabled s then
    match pick with
    | .enterFirst => .enter
    | .dispatchFirst => .dispatch
  else if recEnterEnabled s then .enter
  else if dispatchEnabled s then .dispatch
  else .idle

/-- The instruction an event makes the block run in a state: a received byte and a complete frame are decoded, the other
events fire the operation that is enabled. -/
def fetch (e : Event) (s : State) : Except DecodeError Instr :=
  match e with
  | .rx b => (decode (decodeCtx s) .byteIn [b]).map Prod.fst
  | .tick => .ok (if tickEnabled s then .tick else .tickExpire)
  | .main pick =>
    match mainStep pick s with
    | .dispatch => (decode (decodeCtx s) .frame14 (bufBytes s)).map Prod.fst
    | .enter => .ok .recEnter
    | .iter => .ok .recIter
    | .exit => .ok .recExit
    | .idle => .ok .idle
  | .period c => .ok (.period c)
  | .reset => .ok .reset

/-- The buffer holding the given bytes from cell `a` on. -/
def cellsFrom : Nat → List Byte → Memory
  | _, [] => []
  | a, b :: bs => (a, b) :: cellsFrom (a + 1) bs

/-- `s` with one instruction's bytes where the next step fetches, in the format the decoder reads them in: a frame waits
complete in `buf`, an inbound byte arrives while Searching with the progress its row needs, an outbound byte is sent
(assumption 13). -/
def placeWord (fmt : Format) (w : Nat) (s : State) : State :=
  match fmt with
  | .frame14 =>
    { s with
      buf := cellsFrom 0 (bytesOfNat frameLen w)
      idx := 14
      ready := true
      sync := true
      fail := false
      mphase := .run
      sched := .event (.main .dispatchFirst) :: s.sched }
  | .byteIn =>
    { s with
      sync := false
      escE := true
      escN := true
      escD := true
      sched := .event (.rx (BitVec.ofNat 8 w)) :: s.sched }
  | .byteOut => { s with sched := .op (decodeByteOut (BitVec.ofNat 8 w)) :: s.sched }
  | .event => s

end Sys2Proof.Machine
end

