-- ==== Sys2Proof/Machine/Step.lean ====
section
/-! DEFINITION. One step: one event of the environment, one atomic operation (spec/20_memory.md R49). -/

namespace Sys2Proof.Machine

/-- Run the operation an event fires. -/
def runEvent (e : Event) (s : State) : Host.Outcome State Fault Refusal :=
  match fetch e s with
  | .ok i => exec i s
  | .error _ => .refused .undecoded

/-- One step takes the next entry of the schedule; when there is none, the environment's free choice is the event
(assumption 1). -/
def step (s : State) : Host.Outcome State Fault Refusal :=
  match s.sched with
  | [] => runEvent (Config.environment s.draw) { s with draw := s.draw + 1 }
  | .event e :: rest => runEvent e { s with sched := rest }
  | .op i :: rest => exec i { s with sched := rest }

/-- `s` with the instruction of a table word stored where `step` fetches its next instruction (assumption 13). -/
def State.withFetchWord (s : State) (nbits w : Nat) : State :=
  match tableFormat nbits w with
  | none => s
  | some fmt => placeWord fmt w s

end Sys2Proof.Machine
end

