-- ==== Sys2Proof/Machine/Modes.lean ====
section
/-! DEFINITION. Views of the state that the spec names and no operation reads: the operating mode
(spec/60_exceptions.md R133), the recognizer's count (spec/40_framesync.md R85) and the observables
(spec/92_eei_decisions.md D24). -/

namespace Sys2Proof.Machine

/-- The operating modes of spec/60_exceptions.md R133. -/
inductive Mode where
  | normal
  | searching
  | tripped
  | recovery
deriving DecidableEq, Repr

/-- The mode of a state: the values of (`mphase`, `sync`, `fail`) (R133). -/
def modeOf (s : State) : Mode :=
  if s.mphase = .recovery then .recovery
  else if s.fail then .tripped
  else if s.sync then .normal
  else .searching

/-- `p` = `esc_e + esc_n + esc_d`: how many bytes of the escape sequence have matched (spec/40_framesync.md R85). -/
def escProgress (s : State) : Nat := s.escE.toNat + s.escN.toNat + s.escD.toNat

/-- The recognizer as a counter: the count after a scanned byte (spec/40_framesync.md R85). -/
def progressAfter (p : Nat) (b : Byte) : Nat :=
  if p = 0 ∧ b = escByteE then 1
  else if p = 1 ∧ b = escByteN then 2
  else if p = 2 ∧ b = escByteD then 3
  else p

/-- What a host and the actuators can observe (spec/92_eei_decisions.md D24). -/
structure Observation where
  tx : List Byte
  pw : Channels
  pwa : Channels
  doutA : Bool
  doutB : Bool
  fail : Bool
  sync : Bool
  ovr : Bool
deriving DecidableEq, Repr

/-- The observables of a state. -/
def observe (s : State) : Observation := ⟨s.tx, s.pw, s.pwa, s.doutA, s.doutB, s.fail, s.sync, s.ovr⟩

end Sys2Proof.Machine
end

