-- ==== Sys2Proof/Safety.lean ====
section
/-! DEFINITION. The invariant of the block, in the terms claims use: what the spec derives of every state a run from reset
reaches. It holds at reset and every step keeps it, as long as the schedule lists only what the block itself may fire. -/

namespace Sys2Proof.Machine

/-- The range of a compare value (spec/42_pwm.md R106): `MIN_PULSE` minus a multiple of 8 that is at most 1248. -/
def InPulseRange (cfg : Config) (v : Nat) : Prop := ∃ k, k ≤ posClip ∧ v + k * posScale = cfg.minPulse

/-- The invariant. -/
structure Inv (s : State) : Prop where
  /-- The buffer is in canonical form. -/
  buf_wf : s.buf.wf
  /-- The cells of the current frame have been written (spec/10_state.md R11, R13). -/
  filled : ∀ a, a < s.idx.val → (s.buf.read a).isSome
  /-- A waiting frame has all fourteen cells written (spec/10_state.md R11). -/
  ready_filled : s.ready = true → ∀ a, a < frameLen → (s.buf.read a).isSome
  /-- `idx` = 14 implies `ready` = 1 (spec/10_state.md R18). -/
  full_ready : s.idx = 14 → s.ready = true
  /-- `esc_d` implies `esc_n` implies `esc_e` (spec/10_state.md R16). -/
  esc_d_n : s.escD = true → s.escN = true
  esc_n_e : s.escN = true → s.escE = true
  /-- `sync` = 1 implies that no progress flag is set (spec/10_state.md R16). -/
  sync_clear : s.sync = true → s.escE = false
  /-- The range of `tcnt` (spec/10_state.md R20). -/
  tcnt_lt : s.tcnt < s.cfg.tTimeout
  /-- No frame waits while the main sequencer runs unsynchronized (spec/41_dispatch.md R91, corner case (a)). -/
  run_searching : s.mphase = .run → s.sync = false → s.ready = false
  /-- A cleared `fail` in the recovery phase comes from a resynchronization (spec/43_watchdog.md R114). -/
  recovered_sync : s.mphase = .recovery → s.fail = false → s.sync = true
  /-- The channels stay neutral through the recovery phase (spec/43_watchdog.md R117 (a)). -/
  recovery_neutral : s.mphase = .recovery → s.pw = Channels.fill s.cfg.minPulse
  /-- The range invariant of the pending values (spec/42_pwm.md R106). -/
  pw_range : ∀ c, InPulseRange s.cfg (s.pw.get c)
  /-- The range invariant of the applied values (spec/42_pwm.md R106). -/
  pwa_range : ∀ c, InPulseRange s.cfg (s.pwa.get c)
  /-- The schedule lists only events and rows the block itself may fire (assumption 11). -/
  sched_fired : s.sched.all Item.isFired = true

end Sys2Proof.Machine
end

