-- ==== Sys2Proof/Certificates/Slice0/Obligations.lean ====
section
/-! DEFINITION. The statements for the provers, one `def Obligations.<Name> : Prop` each. A rule that rests on a decision of
the spec's own (`[decision: see 92_eei_decisions.md D<n>]`) is named in the docstring; log n is notes/assumptions/n.md. -/

open Sys2Proof Sys2Proof.Machine

-- Encoding.

/-- Decoding the encoding of a well-formed instruction of a wire format, in a link state that selects its row, gives the
instruction back, with every operand, and leaves the bytes after it. -/
def Obligations.DecodeOfEncodeIsTheInstruction : Prop :=
  ∀ (c : DecodeCtx) (i : Instr) (rest : List Byte),
    i.wf = true → i.selectedIn c = true → decode c i.format (encode i ++ rest) = .ok (i, rest)

/-- What the decoder reads is a well-formed instruction of the format it was asked for, selected by the link state, and its
encoding with the rest is the bytes read, so that no byte is dropped and no two byte strings read as the same. That an
outbound byte with an acknowledgement value is read as the acknowledgement and never as an `ECHO` is the model's choice
(log 9): R62 and R153 call the two indistinguishable. -/
def Obligations.DecodedInstructionReencodes : Prop :=
  ∀ (c : DecodeCtx) (fmt : Format) (bs : List Byte) (i : Instr) (rest : List Byte),
    decode c fmt bs = .ok (i, rest) →
      i.wf = true ∧ i.selectedIn c = true ∧ i.format = fmt ∧ encode i ++ rest = bs

/-- What the decoder rejects, by name: a frame of fewer than fourteen bytes, an empty byte string, and every byte string
offered as an EVENT row; every other byte string has a meaning ("no encoding traps, hangs or is undefined", R68). -/
def Obligations.DecoderRejectsOnlyShortInput : Prop :=
  (∀ (c : DecodeCtx) (bs : List Byte), decode c .event bs = .error .noWireEncoding) ∧
  (∀ (c : DecodeCtx), decode c .byteIn [] = .error .noByte ∧ decode c .byteOut [] = .error .noByte) ∧
  (∀ (c : DecodeCtx) (bs : List Byte), bs.length < 14 → decode c .frame14 bs = .error .frameTooShort) ∧
  (∀ (c : DecodeCtx) (bs : List Byte), 14 ≤ bs.length → ∃ i, decode c .frame14 bs = .ok (i, bs.drop 14)) ∧
  (∀ (c : DecodeCtx) (b : Byte) (rest : List Byte),
    ∃ i j, decode c .byteIn (b :: rest) = .ok (i, rest) ∧ decode c .byteOut (b :: rest) = .ok (j, rest))

/-- Words written out from spec/30_encoding.md decode to the rows they stand for. -/
def Obligations.WordsOfTheSpecDecode : Prop :=
  decode ⟨true, true, false, false, false⟩ .frame14
      [0x43, 0x0A, 0x14, 0x1E, 0x28, 0x32, 0x3C, 0x40, 0x00, 0x66, 0x00, 0x00, 0x00, 0x00] =
    .ok (.cmd ⟨0x43, 10, 20, 30, 40, 50, 60, 0x40, 0, 0x66, 0, 0, 0, 0⟩, []) ∧
  decode ⟨false, false, true, false, false⟩ .byteIn [0x4E] = .ok (.escN, []) ∧
  decode ⟨true, false, false, false, false⟩ .byteIn [0x45] = .ok (.data 0x45, []) ∧
  decode ⟨false, false, false, false, false⟩ .byteOut [0x6B] = .ok (.nakK, [])

-- The step.

/-- A step takes the next entry of the schedule off and runs what it stands for: for a received byte the row its decoding
gives; for a tick `TICK` below the threshold and `TICK.EXPIRE` otherwise; for a period boundary `PERIOD` of its channel;
for a reset `RESET`; for a main step that dispatches the row the fourteen bytes of the buffer decode to, for any other
main step the row `mainStep` picks (`MainSequencerEnabling` says which it picks). The schedule, its entries that name a row
(the fifth clause, log 11) and the free choice of the event when it is empty (the last clause, log 1) are the model's own. -/
def Obligations.StepRunsTheDecodedOperation : Prop :=
  (∀ (s : State) (b : Byte) (rest : List Item) (i : Instr), s.sched = .event (.rx b) :: rest →
    decode (decodeCtx s) .byteIn [b] = .ok (i, []) → step s = exec i { s with sched := rest }) ∧
  (∀ (s : State) (p : MainChoice) (rest : List Item) (i : Instr), s.sched = .event (.main p) :: rest →
    mainStep p s = .dispatch → decode (decodeCtx s) .frame14 (bufBytes s) = .ok (i, []) →
    step s = exec i { s with sched := rest }) ∧
  (∀ (s : State) (p : MainChoice) (rest : List Item), s.sched = .event (.main p) :: rest →
    (mainStep p s = .enter → step s = exec .recEnter { s with sched := rest }) ∧
    (mainStep p s = .iter → step s = exec .recIter { s with sched := rest }) ∧
    (mainStep p s = .exit → step s = exec .recExit { s with sched := rest }) ∧
    (mainStep p s = .idle → step s = exec .idle { s with sched := rest })) ∧
  (∀ (s : State) (rest : List Item),
    (s.sched = .event .tick :: rest → s.tcnt + 1 < s.cfg.tTimeout → step s = exec .tick { s with sched := rest }) ∧
    (s.sched = .event .tick :: rest → ¬ s.tcnt + 1 < s.cfg.tTimeout →
      step s = exec .tickExpire { s with sched := rest }) ∧
    (∀ c, s.sched = .event (.period c) :: rest → step s = exec (.period c) { s with sched := rest }) ∧
    (s.sched = .event .reset :: rest → step s = exec .reset { s with sched := rest })) ∧
  (∀ (s : State) (i : Instr) (rest : List Item), s.sched = .op i :: rest → step s = exec i { s with sched := rest }) ∧
  (∀ s : State, s.sched = [] →
    step s = step { s with draw := s.draw + 1, sched := [.event (Config.environment s.draw)] })

/-- A table word that the decoder reads as an instruction is what the very next step runs once it is placed where the step
fetches. The layout of the word is R75's; the link state it is read in and how it is placed are the model's own convention
(log 13, log 2). -/
def Obligations.PlacedTableWordRunsNext : Prop :=
  ∀ (s : State) (nbits w : Nat) (i : Instr), decodeTableWord nbits w = some i →
    step (s.withFetchWord nbits w) = exec i { s.withFetchWord nbits w with sched := s.sched }

/-- The block never stops: from every state that meets the invariant, whatever event comes next, listed or the
environment's own choice, the step answers a next state. -/
def Obligations.EveryEventCompletes : Prop :=
  ∀ (s : State), Inv s → (s.sched = [] ∨ ∃ e rest, s.sched = .event e :: rest) → ∃ t, step s = .next t

/-- The invariant of Sys2Proof/Safety.lean is kept by every step. -/
def Obligations.StepKeepsTheInvariant : Prop :=
  ∀ (s t : State), Inv s → step s = .next t → Inv t

/-- The invariant holds right after reset, whatever the open parameters are. (Every reset value but `sync` = 1 is the
spec's decision D13, log 5.) -/
def Obligations.ResetMeetsTheInvariant : Prop :=
  Inv State.reset ∧ ∀ cfg : Config, Inv (State.resetOf cfg)

/-- The parameters are fixed: no step writes the configuration. -/
def Obligations.ConfigurationIsNeverWritten : Prop :=
  ∀ (s t : State), step s = .next t → t.cfg = s.cfg

-- Reception.

/-- `RX(b)` is always enabled and is exactly one of the four operations, which the state before it selects. (The timer
reset on every byte is the spec's decision D6; the overrun case is D5.) -/
def Obligations.ReceptionIsOneOfFourOperations : Prop :=
  ∀ (s : State) (b : Byte),
    (s.sync = true → s.idx.val ≤ 13 → exec (.rx b) s = exec (.rxAppend b) s) ∧
    (s.sync = true → s.idx = 14 → exec (.rx b) s = exec (.rxOvr b) s) ∧
    (s.sync = false → ¬(s.escD = true ∧ b = 0xFF#8) → exec (.rx b) s = exec (.rxScan b) s) ∧
    (s.sync = false → s.escD = true ∧ b = 0xFF#8 → exec (.rx b) s = exec .rxResync s) ∧
    (∃ t, exec (.rx b) s = .next t ∧ t.tx = s.tx ++ [b] ∧ t.tcnt = 0)

/-- What a received byte is depends on `sync` and `idx` alone (R66): a field of the current frame whatever its value, an
overrun byte, or a candidate member of the escape sequence; and it is received by the operation R66's table names. -/
def Obligations.ByteMeaningDependsOnTheLink : Prop :=
  ∀ (s : State) (b : Byte) (rest : List Byte),
    (s.sync = true → s.idx.val ≤ 13 →
      decode (decodeCtx s) .byteIn (b :: rest) = .ok (.data b, rest) ∧ exec (.rx b) s = exec (.rxAppend b) s) ∧
    (s.sync = true → s.idx = 14 →
      decode (decodeCtx s) .byteIn (b :: rest) = .ok (.overrun b, rest) ∧ exec (.rx b) s = exec (.rxOvr b) s) ∧
    (s.sync = false →
      (∃ i ∈ [Instr.escE, .escN, .escD, .escFF, .noise b],
        decode (decodeCtx s) .byteIn (b :: rest) = .ok (i, rest)) ∧
      (exec (.rx b) s = exec (.rxScan b) s ∨ exec (.rx b) s = exec .rxResync s))

/-- The row a received byte decodes to in a state does in that state what receiving the byte does. -/
def Obligations.DecodedByteIsTheReception : Prop :=
  ∀ (s : State) (b : Byte) (i : Instr) (rest : List Byte),
    decode (decodeCtx s) .byteIn (b :: rest) = .ok (i, rest) → exec i s = exec (.rx b) s

/-- `RX.APPEND` and `DATA`: the byte is echoed and stored at the frame index, every other cell reads as before, the index
advances, `ready` is raised when it becomes 14, and nothing else changes. -/
def Obligations.AppendStoresOneByteAtTheIndex : Prop :=
  ∀ (s : State) (b : Byte) (i : Instr), i = .rxAppend b ∨ i = .data b → s.sync = true → s.idx.val ≤ 13 →
    ∃ t, exec i s = .next t ∧
      t.buf.read s.idx.val = some b ∧ bufAt t s.idx.val = b ∧
      (∀ a, a ≠ s.idx.val → t.buf.read a = s.buf.read a ∧ bufAt t a = bufAt s a) ∧
      t.idx.val = s.idx.val + 1 ∧ (t.ready = true ↔ s.ready = true ∨ s.idx.val = 13) ∧
      t = { s with tx := s.tx ++ [b], tcnt := 0, buf := t.buf, idx := t.idx, ready := t.ready }

/-- `RX.OVR` and `OVERRUN` (the spec's decision D5): echoed, timer reset, `ovr` set; the byte is not stored and nothing else
changes. -/
def Obligations.OverrunDropsTheByte : Prop :=
  ∀ (s : State) (b : Byte) (i : Instr), i = .rxOvr b ∨ i = .overrun b → s.sync = true → s.idx = 14 →
    exec i s = .next { s with tx := s.tx ++ [b], tcnt := 0, ovr := true }

/-- `RX.SCAN`: echo, timer reset, and the sticky, ordered progress flags; nothing else changes. (The ordering of the chain
is the spec's decision D3.) -/
def Obligations.ScanLatchesTheProgressFlags : Prop :=
  ∀ (s : State) (b : Byte), s.sync = false → ¬(s.escD = true ∧ b = 0xFF#8) →
    exec (.rxScan b) s = .next { s with
      tx := s.tx ++ [b]
      tcnt := 0
      escE := s.escE || b == 0x45#8
      escN := s.escN || (b == 0x4E#8 && s.escE)
      escD := s.escD || (b == 0x44#8 && s.escN) }

/-- `ESC.E`, `ESC.N`, `ESC.D`, `ESC.FF` while Searching: each sets its flag if its condition is met, "otherwise no effect on
flags"; the fourth resynchronizes if `esc_d` is set. The link stays Searching except for that. -/
def Obligations.EscapeBytesAdvanceTheRecognizer : Prop :=
  ∀ (s : State), s.sync = false →
    exec .escE s = .next { s with tx := s.tx ++ [0x45#8], tcnt := 0, escE := true } ∧
    exec .escN s = .next { s with tx := s.tx ++ [0x4E#8], tcnt := 0, escN := s.escN || s.escE } ∧
    exec .escD s = .next { s with tx := s.tx ++ [0x44#8], tcnt := 0, escD := s.escD || s.escN } ∧
    (s.escD = false → exec .escFF s = .next { s with tx := s.tx ++ [0xFF#8], tcnt := 0 }) ∧
    (s.escD = true → exec .escFF s = .next { s with
      tx := s.tx ++ [0xFF#8], tcnt := 0, sync := true, idx := 0, fail := false
      escE := false, escN := false, escD := false })

/-- `NOISE`: a byte received while Searching that meets none of the four conditions of R67 is echoed and resets the timer,
and nothing else changes. -/
def Obligations.NoiseOnlyEchoes : Prop :=
  ∀ (s : State) (b : Byte), s.sync = false → b ≠ 0x45#8 → ¬(b = 0x4E#8 ∧ s.escE = true) →
    ¬(b = 0x44#8 ∧ s.escN = true) → ¬(b = 0xFF#8 ∧ s.escD = true) →
    exec (.noise b) s = .next { s with tx := s.tx ++ [b], tcnt := 0 }

/-- `RX.RESYNC`: the link is Synchronized, the frame index 0, `fail` cleared, the timer 0 and the progress flags cleared
(the last is the spec's decision D4); nothing else changes, `ready` and `mphase` among it. -/
def Obligations.ResynchronizationEffect : Prop :=
  ∀ (s : State), s.sync = false → s.escD = true →
    exec .rxResync s = .next { s with
      tx := s.tx ++ [0xFF#8], tcnt := 0, sync := true, idx := 0, fail := false
      escE := false, escN := false, escD := false }

/-- The recognizer as a counter (R85): in a Searching state of the invariant, a received byte moves the count of matched
bytes as R85's table says, and completes the sequence exactly at count 3 and byte 0xFF. -/
def Obligations.RecognizerIsACounter : Prop :=
  ∀ (s t : State) (b : Byte), Inv s → s.sync = false → exec (.rx b) s = .next t →
    (escProgress s = 3 ∧ b = 0xFF#8 → t.sync = true ∧ escProgress t = 0) ∧
    (¬(escProgress s = 3 ∧ b = 0xFF#8) → t.sync = false ∧ escProgress t = progressAfter (escProgress s) b)

/-- The recognizer accepts a byte string exactly if it contains E, N, D, 0xFF as a subsequence, and resynchronizes at the
earliest 0xFF that completes one (R85; the ordered chain is the spec's decision D3): from a Searching state without
progress, with only receptions of the bytes fired, the link is still Searching after them if they contain no such
subsequence, and is resynchronized by the last one if it completes the first such subsequence. -/
def Obligations.EscapeIsRecognizedAsASubsequence : Prop :=
  ∀ (s : State) (bs : List Byte) (rest : List Item),
    s.sync = false → s.escE = false → s.escN = false → s.escD = false →
    s.sched = bs.map (fun b => Item.event (.rx b)) ++ rest →
    (¬ escSequence.Sublist bs →
      ∃ t : State, Host.Core.run Sys2Proof.core bs.length s = .next t ∧
        t = { s with
          sched := rest, tx := s.tx ++ bs, tcnt := t.tcnt, escE := t.escE, escN := t.escN, escD := t.escD }) ∧
    (∀ pre : List Byte, bs = pre ++ [0xFF#8] → [0x45#8, 0x4E#8, 0x44#8].Sublist pre → ¬ escSequence.Sublist pre →
      Host.Core.run Sys2Proof.core bs.length s = .next { s with
        sched := rest, tx := s.tx ++ bs, tcnt := 0, sync := true, idx := 0, fail := false
        escE := false, escN := false, escD := false })

-- Dispatch.

/-- `DISPATCH` is exactly one of its three outcomes; the marker and synchronization test has priority over the checksum test
(R90; that the dispatch is one atomic operation is the spec's decision D2). -/
def Obligations.DispatchTestsMarkerThenChecksum : Prop :=
  ∀ (s : State), dispatchEnabled s = true →
    ((bufAt s 0 ≠ 0x43#8 ∨ s.sync = false) → exec .dispatch s = exec .dispS s) ∧
    (bufAt s 0 = 0x43#8 → s.sync = true → (frameOf s).checksum ≠ bufAt s 9 → exec .dispatch s = exec .dispK s) ∧
    (bufAt s 0 = 0x43#8 → s.sync = true → (frameOf s).checksum = bufAt s 9 → exec .dispatch s = exec .dispG s)

/-- The dispatch runs the row the fourteen bytes of the buffer decode to: the analogue of an instruction fetch (R53). -/
def Obligations.DispatchRunsTheDecodedFrame : Prop :=
  ∀ (s : State) (i : Instr) (rest : List Byte), dispatchEnabled s = true →
    decode (decodeCtx s) .frame14 (bufBytes s) = .ok (i, rest) → exec .dispatch s = exec i s

/-- Properties (a) to (d) of R95: every enabled dispatch answers a next state with `idx` 0, `ready` 0 and `tcnt` 0, sends
exactly one acknowledgement byte, and leaves the link Synchronized after `'G'` and `'k'` and Searching after `'s'`; buffer,
applied values and phase are unchanged. -/
def Obligations.DispatchAcknowledgesOnce : Prop :=
  ∀ (s : State), dispatchEnabled s = true →
    ∃ t ack, exec .dispatch s = .next t ∧ t.idx = 0 ∧ t.ready = false ∧ t.tcnt = 0 ∧ t.tx = s.tx ++ [ack] ∧
      (ack = 0x47#8 ∨ ack = 0x6B#8 ∨ ack = 0x73#8) ∧ (t.sync = false ↔ ack = 0x73#8) ∧
      (ack ≠ 0x47#8 → t.pw = s.pw ∧ t.doutA = s.doutA ∧ t.doutB = s.doutB) ∧
      t.buf = s.buf ∧ t.pwa = s.pwa ∧ t.mphase = s.mphase ∧ t.fail = s.fail ∧ t.ovr = s.ovr

/-- `DISP.S` and `CMD.BADMARKER`: the frame is discarded, `'s'` is sent, the link goes to Searching, nothing else changes
(that the progress flags stay is the spec's decision D10). -/
def Obligations.FramingErrorEffect : Prop :=
  (∀ (s : State), dispatchEnabled s = true → bufAt s 0 ≠ 0x43#8 ∨ s.sync = false →
    exec .dispS s = .next { s with idx := 0, ready := false, tcnt := 0, tx := s.tx ++ [0x73#8], sync := false }) ∧
  (∀ (s : State) (f : Frame), dispatchEnabled s = true → f.marker ≠ 0x43#8 ∨ s.sync = false →
    exec (.cmdBadmarker f) s =
      .next { s with idx := 0, ready := false, tcnt := 0, tx := s.tx ++ [0x73#8], sync := false })

/-- `DISP.K` and `CMD.BADCHK` (R92): the frame is discarded, `'k'` is sent, everything else is unchanged, `sync` stays 1: "a
corrupted command never partially applies". -/
def Obligations.ChecksumErrorEffect : Prop :=
  (∀ (s : State), dispatchEnabled s = true → bufAt s 0 = 0x43#8 → s.sync = true →
    bufAt s 1 ^^^ bufAt s 2 ^^^ bufAt s 3 ^^^ bufAt s 4 ^^^ bufAt s 5 ^^^ bufAt s 6 ^^^ bufAt s 7 ^^^ bufAt s 8 ≠
      bufAt s 9 →
    exec .dispK s = .next { s with idx := 0, ready := false, tcnt := 0, tx := s.tx ++ [0x6B#8] }) ∧
  (∀ (s : State) (f : Frame), dispatchEnabled s = true → f.marker = 0x43#8 → s.sync = true →
    f.pos1 ^^^ f.pos2 ^^^ f.pos3 ^^^ f.pos4 ^^^ f.pos5 ^^^ f.pos6 ^^^ f.sw ^^^ f.rsv ≠ f.chk →
    exec (.cmdBadchk f) s = .next { s with idx := 0, ready := false, tcnt := 0, tx := s.tx ++ [0x6B#8] })

/-- `DISP.G` and `CMD` (R93): `'G'` is sent, every channel's compare value becomes `MIN_PULSE` minus its mapped position, the
outputs follow bits 6 and 7 of the switch byte, the progress flags are cleared, and nothing else changes. -/
def Obligations.AcceptedFrameEffect : Prop :=
  (∀ (s : State), dispatchEnabled s = true → bufAt s 0 = 0x43#8 → s.sync = true →
    bufAt s 1 ^^^ bufAt s 2 ^^^ bufAt s 3 ^^^ bufAt s 4 ^^^ bufAt s 5 ^^^ bufAt s 6 ^^^ bufAt s 7 ^^^ bufAt s 8 =
      bufAt s 9 →
    exec .dispG s = .next { s with
      idx := 0, ready := false, tcnt := 0, tx := s.tx ++ [0x47#8]
      pw := ⟨s.cfg.minPulse - min (bufAt s 1).toNat 156 * 8, s.cfg.minPulse - min (bufAt s 2).toNat 156 * 8,
        s.cfg.minPulse - min (bufAt s 3).toNat 156 * 8, s.cfg.minPulse - min (bufAt s 4).toNat 156 * 8,
        s.cfg.minPulse - min (bufAt s 5).toNat 156 * 8, s.cfg.minPulse - min (bufAt s 6).toNat 156 * 8⟩
      doutA := (bufAt s 7).getLsbD 6, doutB := (bufAt s 7).getLsbD 7
      escE := false, escN := false, escD := false }) ∧
  (∀ (s : State) (f : Frame), dispatchEnabled s = true → f.marker = 0x43#8 → s.sync = true →
    f.pos1 ^^^ f.pos2 ^^^ f.pos3 ^^^ f.pos4 ^^^ f.pos5 ^^^ f.pos6 ^^^ f.sw ^^^ f.rsv = f.chk →
    exec (.cmd f) s = .next { s with
      idx := 0, ready := false, tcnt := 0, tx := s.tx ++ [0x47#8]
      pw := ⟨s.cfg.minPulse - min f.pos1.toNat 156 * 8, s.cfg.minPulse - min f.pos2.toNat 156 * 8,
        s.cfg.minPulse - min f.pos3.toNat 156 * 8, s.cfg.minPulse - min f.pos4.toNat 156 * 8,
        s.cfg.minPulse - min f.pos5.toNat 156 * 8, s.cfg.minPulse - min f.pos6.toNat 156 * 8⟩
      doutA := f.sw.getLsbD 6, doutB := f.sw.getLsbD 7
      escE := false, escN := false, escD := false })

/-- Padding has no effect (R69 (c), I3): replacing the buffer by one that reads the same at addresses 0 to 9 changes the
outcome of no dispatch, but for the buffer itself. -/
def Obligations.PaddingIsNeverRead : Prop :=
  ∀ (s t : State) (m : Memory) (i : Instr),
    i = .dispatch ∨ i = .dispS ∨ i = .dispK ∨ i = .dispG ∨ i = .chk →
    (∀ a, a ≤ 9 → m.read a = s.buf.read a) → exec i s = .next t → exec i { s with buf := m } = .next { t with buf := m }

/-- The reset contents of `buf` cannot be observed (R11): in a state of the invariant a dispatch does the same whatever the
power-on bytes are, so the epoch they depend on does not matter. -/
def Obligations.PowerOnBytesAreNeverDispatched : Prop :=
  ∀ (s t : State) (n : Nat), Inv s → exec .dispatch s = .next t →
    exec .dispatch { s with epoch := n } = .next { t with epoch := n }

/-- `Chk` (R94): the exclusive-or of bytes 1 to 8 and of nothing else; the frame passes exactly if the exclusive-or of bytes
1 to 9 is 0. As R94 derives, an error pattern on bytes 1 to 9 of a good frame is missed exactly if it flips an even number
of bits in every bit position, such as two exchanged position bytes. The row `CHK` evaluates it on the buffer; that its
result is left in the model's own `ret` is the model's choice (log 10). -/
def Obligations.ChecksumIsTheXorOfBytes1To8 : Prop :=
  (∀ f : Frame, f.checksum = f.pos1 ^^^ f.pos2 ^^^ f.pos3 ^^^ f.pos4 ^^^ f.pos5 ^^^ f.pos6 ^^^ f.sw ^^^ f.rsv) ∧
  (∀ f : Frame, f.chkOk = true ↔
    f.pos1 ^^^ f.pos2 ^^^ f.pos3 ^^^ f.pos4 ^^^ f.pos5 ^^^ f.pos6 ^^^ f.sw ^^^ f.rsv ^^^ f.chk = 0#8) ∧
  (∀ (f : Frame) (m k p0 p1 p2 p3 : Byte),
    Frame.checksum { f with marker := m, chk := k, pad0 := p0, pad1 := p1, pad2 := p2, pad3 := p3 } = f.checksum) ∧
  (∀ f : Frame, Frame.checksum { f with pos1 := f.pos2, pos2 := f.pos1 } = f.checksum) ∧
  (∀ f g : Frame, f.chkOk = true →
    (g.chkOk = true ↔ (f.pos1 ^^^ g.pos1) ^^^ (f.pos2 ^^^ g.pos2) ^^^ (f.pos3 ^^^ g.pos3) ^^^ (f.pos4 ^^^ g.pos4) ^^^
      (f.pos5 ^^^ g.pos5) ^^^ (f.pos6 ^^^ g.pos6) ^^^ (f.sw ^^^ g.sw) ^^^ (f.rsv ^^^ g.rsv) ^^^ (f.chk ^^^ g.chk) = 0#8)) ∧
  (∀ s : State, exec .chk s = .next { s with
    ret := (bufAt s 1 ^^^ bufAt s 2 ^^^ bufAt s 3 ^^^ bufAt s 4 ^^^ bufAt s 5 ^^^ bufAt s 6 ^^^ bufAt s 7 ^^^
      bufAt s 8).toNat })

-- Pulse-width mapper and actuation engine.

/-- `Map` (R100): `min(p, 156) * 8`, total, at most 1248, a multiple of 8, monotonic, constant from 156 on; as R100
derives, the order of clip and scale is immaterial. The row `MAP` reads and writes no state of the spec; that its result is
left in the model's own `ret` is the model's choice (log 10). -/
def Obligations.MapperClipsAndScales : Prop :=
  (∀ p : Byte, mapOffset p = min p.toNat 156 * 8 ∧ mapOffset p = min (p.toNat * 8) 1248) ∧
  (∀ p : Byte, mapOffset p ≤ 1248 ∧ mapOffset p % 8 = 0) ∧
  (∀ p q : Byte, p.toNat ≤ q.toNat → mapOffset p ≤ mapOffset q) ∧
  (∀ p : Byte, 156 ≤ p.toNat → mapOffset p = 1248) ∧
  (∀ p : Byte, p.toNat ≤ 156 → mapOffset p = 8 * p.toNat) ∧
  (∀ (s : State) (p : Byte), exec (.map p) s = .next { s with ret := min p.toNat 156 * 8 })

/-- `SETCHANNEL` (R101): for an offset of 0 to 1248 the channel's register becomes `MIN_PULSE` minus the offset, exactly (the
sum is `MIN_PULSE` again), no other channel and nothing else changes, and the channel's next `PERIOD` applies it. -/
def Obligations.SetChannelWritesOneRegister : Prop :=
  ∀ (s : State) (c : Channel) (off : Nat), off ≤ 1248 →
    ∃ t u, exec (.setChannel c off) s = .next t ∧ t.pw.get c + off = s.cfg.minPulse ∧
      (∀ d, d ≠ c → t.pw.get d = s.pw.get d) ∧ t = { s with pw := t.pw } ∧
      exec (.period c) t = .next u ∧ u.pwa.get c = s.cfg.minPulse - off

/-- `SETCHANNEL` with an offset above 1248, for which R101 states no result: the row runs, the channel's register holds some
value of its width (a free value, the model's choice, log 7), no other channel changes, nothing else of the spec's state
changes, and the channel's next `PERIOD` applies the value. -/
def Obligations.SetChannelOutOfRangeWritesAFreeValue : Prop :=
  ∀ (s : State) (c : Channel) (off : Nat), 1248 < off →
    ∃ t u, exec (.setChannel c off) s = .next t ∧ t.pw.get c < 2 ^ s.cfg.pwWidth ∧
      (∀ d, d ≠ c → t.pw.get d = s.pw.get d) ∧ t = { s with pw := t.pw, draw := s.draw + 1 } ∧
      exec (.period c) t = .next u ∧ u.pwa.get c = t.pw.get c

/-- `NEUTRALIZEALL` (R102): all six channels at `MIN_PULSE`, nothing else changed; it is `SetChannel(i, 0)` for every channel
and idempotent; each channel's next `PERIOD` applies it. -/
def Obligations.NeutralizeAllEffect : Prop :=
  ∀ s : State,
    exec .neutralizeAll s = .next { s with
      pw := ⟨s.cfg.minPulse, s.cfg.minPulse, s.cfg.minPulse, s.cfg.minPulse, s.cfg.minPulse, s.cfg.minPulse⟩ } ∧
    (∀ c : Channel, (neutralizeAll s).pw.get c = (setChannel c 0 s).pw.get c) ∧
    exec .neutralizeAll (neutralizeAll s) = .next (neutralizeAll s) ∧
    (∀ c : Channel, ∃ u, exec (.period c) (neutralizeAll s) = .next u ∧ u.pwa.get c = s.cfg.minPulse)

/-- `SETDIGITALOUTPUTS` (R103): output A follows bit 6 and output B bit 7 of the byte, each on its own, whatever the other six
bits are; nothing else changes. -/
def Obligations.DigitalOutputsFollowTheirBits : Prop :=
  ∀ (s : State) (b : Byte),
    exec (.setDigitalOutputs b) s = .next { s with doutA := b.getLsbD 6, doutB := b.getLsbD 7 } ∧
    (switchA b = true ↔ b &&& 0x40#8 ≠ 0#8) ∧ (switchB b = true ↔ b &&& 0x80#8 ≠ 0#8)

/-- `PERIOD(i)` (R104): always enabled; the applied value of the one channel becomes its pending value, whatever was pending
before; no other channel and nothing else changes. (One boundary per channel is the spec's decision D14.) -/
def Obligations.PeriodAppliesThePendingValue : Prop :=
  ∀ (s : State) (c : Channel),
    ∃ t, exec (.period c) s = .next t ∧ t.pwa.get c = s.pw.get c ∧ (∀ d, d ≠ c → t.pwa.get d = s.pwa.get d) ∧
      t = { s with pwa := t.pwa }

/-- The arithmetic never borrows and never overflows (R105, R106): a step from a state of the invariant leaves every pending
and every applied value between `MIN_PULSE - 1248` and `MIN_PULSE`, a multiple of 8 away from it and within `PW_WIDTH`
bits. -/
def Obligations.CompareValuesStayInRange : Prop :=
  ∀ (s t : State) (c : Channel), Inv s → step s = .next t →
    (t.pw.get c ≤ s.cfg.minPulse ∧ s.cfg.minPulse - 1248 ≤ t.pw.get c ∧ (s.cfg.minPulse - t.pw.get c) % 8 = 0 ∧
      t.pw.get c < 2 ^ s.cfg.pwWidth) ∧
    (t.pwa.get c ≤ s.cfg.minPulse ∧ s.cfg.minPulse - 1248 ≤ t.pwa.get c ∧ (s.cfg.minPulse - t.pwa.get c) % 8 = 0 ∧
      t.pwa.get c < 2 ^ s.cfg.pwWidth)

-- Watchdog and main sequencer.

/-- `TICK` (R110, whose timer model is the spec's decision D7): below the threshold the counter advances by one, nothing else
changes, whatever `sync`, `fail` and `mphase` are. -/
def Obligations.TickAdvancesTheCounter : Prop :=
  ∀ s : State, s.tcnt + 1 < s.cfg.tTimeout → exec .tick s = .next { s with tcnt := s.tcnt + 1 }

/-- `TICK.EXPIRE` (R111; `tcnt <- 0` is the spec's decision D7): the tick that reaches the threshold sets `fail` and "does not
touch any other state directly". -/
def Obligations.ExpirySetsFailOnly : Prop :=
  ∀ s : State, s.tcnt + 1 = s.cfg.tTimeout → exec .tickExpire s = .next { s with fail := true, tcnt := 0 }

/-- `REC.ENTER` (R112; `MAIN_PRIORITY` is the spec's parameter D8): all channels neutral, the phase becomes `Recovery`,
nothing else changes, the digital outputs among it. -/
def Obligations.RecoveryEntryNeutralizes : Prop :=
  ∀ s : State, s.mphase = .run → s.fail = true → s.ready = false ∨ s.cfg.priority ≠ .readyFirst →
    exec .recEnter s = .next { s with
      pw := ⟨s.cfg.minPulse, s.cfg.minPulse, s.cfg.minPulse, s.cfg.minPulse, s.cfg.minPulse, s.cfg.minPulse⟩
      mphase := .recovery }

/-- `REC.ITER` (R113; the atomicity of the iteration is the spec's decision D9): the link is forced unsynchronized, without
progress; nothing else changes. -/
def Obligations.RecoveryIterationErasesProgress : Prop :=
  ∀ s : State, s.mphase = .recovery → s.fail = true →
    exec .recIter s = .next { s with sync := false, escE := false, escN := false, escD := false }

/-- `REC.EXIT` (R114): the main sequencer observes `fail` cleared and returns to `Run`; nothing else changes. -/
def Obligations.RecoveryExitReturnsToRun : Prop :=
  ∀ s : State, s.mphase = .recovery → s.fail = false → exec .recExit s = .next { s with mphase := .run }

/-- `IDLE` (R116, the spec's decision D9): no state change. -/
def Obligations.IdleChangesNothing : Prop :=
  ∀ s : State, s.mphase = .run → s.fail = false → s.ready = false → exec .idle s = .next s

/-- Which main-sequencer operations are enabled (R115, with the parameter `MAIN_PRIORITY`, the spec's D8): exactly in the
states of R115's table an operation answers a next state; in every state one of the five does; in `Recovery` exactly one
does; and the step that `mainStep` picks is an enabled one. -/
def Obligations.MainSequencerEnabling : Prop :=
  ∀ s : State,
    ((∃ t, exec .recEnter s = .next t) ↔
      s.mphase = .run ∧ s.fail = true ∧ (s.ready = false ∨ s.cfg.priority ≠ .readyFirst)) ∧
    ((∃ t, exec .dispatch s = .next t) ↔
      s.mphase = .run ∧ s.ready = true ∧ (s.fail = false ∨ s.cfg.priority ≠ .failFirst)) ∧
    ((∃ t, exec .idle s = .next t) ↔ s.mphase = .run ∧ s.fail = false ∧ s.ready = false) ∧
    ((∃ t, exec .recIter s = .next t) ↔ s.mphase = .recovery ∧ s.fail = true) ∧
    ((∃ t, exec .recExit s = .next t) ↔ s.mphase = .recovery ∧ s.fail = false) ∧
    (∀ pick : MainChoice,
      (mainStep pick s = .enter → ∃ t, exec .recEnter s = .next t) ∧
      (mainStep pick s = .dispatch → ∃ t, exec .dispatch s = .next t) ∧
      (mainStep pick s = .idle → ∃ t, exec .idle s = .next t) ∧
      (mainStep pick s = .iter → ∃ t, exec .recIter s = .next t) ∧
      (mainStep pick s = .exit → ∃ t, exec .recExit s = .next t)) ∧
    ((∃ t, exec .recEnter s = .next t) → ∃ pick, mainStep pick s = .enter) ∧
    ((∃ t, exec .dispatch s = .next t) → ∃ pick, mainStep pick s = .dispatch)

/-- Eventual trip (R117 (d)): if no byte is received and no frame dispatched while at least `T_TIMEOUT` ticks fire, in any
interleaving with period boundaries and main-sequencer steps, `fail` is set afterwards, and every one of these events
completes. -/
def Obligations.SilenceTripsTheWatchdog : Prop :=
  ∀ (s : State) (es : List Event) (rest : List Item),
    s.tcnt < s.cfg.tTimeout → s.ready = false →
    (∀ e ∈ es, e = .tick ∨ (∃ c, e = .period c) ∨ ∃ p, e = .main p) →
    s.cfg.tTimeout ≤ es.count .tick → s.sched = es.map Item.event ++ rest →
    ∃ t : State, Host.Core.run Sys2Proof.core es.length s = .next t ∧ t.fail = true ∧ t.sched = rest

/-- The fail-safe state ends only by the full escape sequence (R117 (a) and (b), S7): from a state of the recovery phase with
`fail` set and no progress, whatever bytes arrive, ticks, period boundaries and main-sequencer steps fire in whatever
order, as long as the bytes received do not contain E, N, D, 0xFF as a subsequence, the block is still in the recovery
phase with `fail` set and all six channels at `MIN_PULSE`. -/
def Obligations.FailSafeEndsOnlyByTheEscapeSequence : Prop :=
  ∀ (s : State) (es : List Event) (rest : List Item),
    Inv s → s.mphase = .recovery → s.fail = true → s.escE = false →
    (∀ e ∈ es, e ≠ .reset) →
    ¬ escSequence.Sublist (es.filterMap fun e => match e with | .rx b => some b | _ => none) →
    s.sched = es.map Item.event ++ rest →
    ∃ t : State, Host.Core.run Sys2Proof.core es.length s = .next t ∧
      t.mphase = .recovery ∧ t.fail = true ∧ t.pw = Channels.fill s.cfg.minPulse

/-- A frame is received and answered (S2, S3, S4; R81, R90 to R93): in the Normal mode with no partial frame, the reception
of any fourteen bytes and one step of the main sequencer leave the bytes in the buffer, echo each of them and send
exactly one acknowledgement: `'s'` and Searching for a bad marker, else `'k'` and no change of any setpoint or output for
a bad checksum, else `'G'` with every channel and both outputs as the frame commands. -/
def Obligations.FrameIsReceivedAndAnswered : Prop :=
  ∀ (s : State) (f : Frame) (p : MainChoice) (rest : List Item),
    s.sync = true → s.idx = 0 → s.ready = false → s.fail = false → s.mphase = .run →
    s.sched = f.bytes.map (fun b => Item.event (.rx b)) ++ Item.event (.main p) :: rest →
    ∃ t : State, Host.Core.run Sys2Proof.core 15 s = .next t ∧
      frameOf t = f ∧ t.sched = rest ∧ t.idx = 0 ∧ t.ready = false ∧ t.tcnt = 0 ∧ t.ovr = s.ovr ∧ t.pwa = s.pwa ∧
      t.fail = false ∧ t.mphase = .run ∧
      (f.marker ≠ 0x43#8 → t.tx = s.tx ++ f.bytes ++ [0x73#8] ∧ t.sync = false ∧
        t.pw = s.pw ∧ t.doutA = s.doutA ∧ t.doutB = s.doutB) ∧
      (f.marker = 0x43#8 → f.checksum ≠ f.chk → t.tx = s.tx ++ f.bytes ++ [0x6B#8] ∧ t.sync = true ∧
        t.pw = s.pw ∧ t.doutA = s.doutA ∧ t.doutB = s.doutB) ∧
      (f.marker = 0x43#8 → f.checksum = f.chk → t.tx = s.tx ++ f.bytes ++ [0x47#8] ∧ t.sync = true ∧
        (∀ c, t.pw.get c = s.cfg.minPulse - min (f.pos c).toNat 156 * 8) ∧
        t.doutA = f.sw.getLsbD 6 ∧ t.doutB = f.sw.getLsbD 7)

-- Whole-machine rules.

/-- `fail` (R17): an operation clears it only by the resynchronization (or reset), and sets it only by the expiry. -/
def Obligations.FailIsClearedOnlyByResynchronization : Prop :=
  ∀ (i : Instr) (s t : State), exec i s = .next t →
    (s.fail = true → t.fail = false →
      i = .reset ∨ (s.sync = false ∧ s.escD = true ∧ (i = .rx 0xFF#8 ∨ i = .rxResync ∨ i = .escFF))) ∧
    (s.fail = false → t.fail = true → i = .tickExpire)

/-- The link state graph (R86): an operation takes the link from Searching to Synchronized only by the resynchronization (or
reset), and from Synchronized to Searching only by a framing error or a recovery iteration. -/
def Obligations.LinkStateGraph : Prop :=
  ∀ (i : Instr) (s t : State), exec i s = .next t →
    (s.sync = false → t.sync = true →
      i = .reset ∨ (s.escD = true ∧ (i = .rx 0xFF#8 ∨ i = .rxResync ∨ i = .escFF))) ∧
    (s.sync = true → t.sync = false →
      i = .recIter ∨ i = .dispS ∨ (∃ f, i = .cmdBadmarker f) ∨ (i = .dispatch ∧ bufAt s 0 ≠ 0x43#8))

/-- Who writes the actuators (R12, R22, R23, R95 (b)): of the operations the block fires, reset aside, only the recovery entry
and an accepted frame (a `DISPATCH`, `DISP.G` or `CMD` that answers `'G'`) change a pending value, only an accepted frame
changes a digital output, and only the period boundary of a channel changes an applied value, that of its channel. -/
def Obligations.ActuatorsHaveFewWriters : Prop :=
  ∀ (i : Instr) (s t : State), i.isFired = true → exec i s = .next t → i ≠ .reset →
    (t.pw ≠ s.pw → i = .recEnter ∨
      ((i = .dispatch ∨ i = .dispG ∨ ∃ f, i = .cmd f) ∧ s.mphase = .run ∧ s.ready = true ∧ t.tx = s.tx ++ [0x47#8])) ∧
    (t.doutA ≠ s.doutA ∨ t.doutB ≠ s.doutB →
      (i = .dispatch ∨ i = .dispG ∨ ∃ f, i = .cmd f) ∧ s.mphase = .run ∧ s.ready = true ∧ t.tx = s.tx ++ [0x47#8]) ∧
    (∀ c, t.pwa.get c ≠ s.pwa.get c → i = .period c)

/-- The outbound log (R24): every operation but reset appends at most one byte and changes nothing before it. -/
def Obligations.OutboundLogOnlyGrows : Prop :=
  ∀ (i : Instr) (s t : State), exec i s = .next t → i ≠ .reset → t.tx = s.tx ∨ ∃ b, t.tx = s.tx ++ [b]

/-- The overrun flag (R19, which the spec itself adds, D5 and D22): sticky, cleared by nothing but reset, set only by an
overrun: a byte received (`RX`, `RX.OVR` or `OVERRUN`) while Synchronized with the frame index at 14. -/
def Obligations.OverrunIsSticky : Prop :=
  ∀ (i : Instr) (s t : State), exec i s = .next t →
    (s.ovr = true → t.ovr = false → i = .reset) ∧
    (s.ovr = false → t.ovr = true → s.sync = true ∧ s.idx = 14 ∧
      ∃ b, (i = .rx b ∨ i = .rxOvr b ∨ i = .overrun b) ∧ t.tx = s.tx ++ [b])

/-- The buffer (R11): an operation other than reset changes the cell at the frame index at most, and only by an append. -/
def Obligations.BufferIsWrittenOnlyAtTheIndex : Prop :=
  ∀ (i : Instr) (s t : State), exec i s = .next t → i ≠ .reset →
    (∀ a, a ≠ s.idx.val → bufAt t a = bufAt s a) ∧
    (bufAt t s.idx.val ≠ bufAt s s.idx.val → s.sync = true ∧ s.idx.val ≤ 13 ∧ ∃ b, i = .rx b ∨ i = .rxAppend b ∨ i = .data b)

/-- `ACK.G`, `NAK.K`, `NAK.S`, `ECHO`: each is the `Tx` of its byte and changes nothing else (R62, R24; that an outbound row is
run on its own is the model's choice, log 9). -/
def Obligations.OutboundBytesAreAppended : Prop :=
  ∀ s : State,
    exec .ackG s = .next { s with tx := s.tx ++ [0x47#8] } ∧
    exec .nakK s = .next { s with tx := s.tx ++ [0x6B#8] } ∧
    exec .nakS s = .next { s with tx := s.tx ++ [0x73#8] } ∧
    (∀ b : Byte, exec (.echo b) s = .next { s with tx := s.tx ++ [b] })

/-- An operation whose enabling condition is false has no transition: its row stops by name (log 6). Every row with an
enabling condition stands here, with the whole negation of that condition. -/
def Obligations.DisabledOperationsAreRefused : Prop :=
  (∀ (s : State) (b : Byte), ¬(s.sync = true ∧ s.idx.val ≤ 13) →
    exec (.rxAppend b) s = .refused (.notEnabled "RX.APPEND") ∧ exec (.data b) s = .refused (.notEnabled "DATA")) ∧
  (∀ (s : State) (b : Byte), ¬(s.sync = true ∧ s.idx = 14) →
    exec (.rxOvr b) s = .refused (.notEnabled "RX.OVR") ∧ exec (.overrun b) s = .refused (.notEnabled "OVERRUN")) ∧
  (∀ (s : State) (b : Byte), s.sync = true ∨ (s.escD = true ∧ b = 0xFF#8) →
    exec (.rxScan b) s = .refused (.notEnabled "RX.SCAN")) ∧
  (∀ (s : State), s.sync = true ∨ s.escD = false → exec .rxResync s = .refused (.notEnabled "RX.RESYNC")) ∧
  (∀ (s : State), s.sync = true →
    exec .escE s = .refused (.notEnabled "ESC.E") ∧ exec .escN s = .refused (.notEnabled "ESC.N") ∧
    exec .escD s = .refused (.notEnabled "ESC.D") ∧ exec .escFF s = .refused (.notEnabled "ESC.FF")) ∧
  (∀ (s : State) (b : Byte),
    s.sync = true ∨ b = 0x45#8 ∨ (b = 0x4E#8 ∧ s.escE = true) ∨ (b = 0x44#8 ∧ s.escN = true) ∨
      (b = 0xFF#8 ∧ s.escD = true) →
    exec (.noise b) s = .refused (.notEnabled "NOISE")) ∧
  (∀ (s : State), dispatchEnabled s = false → exec .dispatch s = .refused (.notEnabled "DISPATCH")) ∧
  (∀ (s : State), dispatchEnabled s = false ∨ (bufAt s 0 = 0x43#8 ∧ s.sync = true) →
    exec .dispS s = .refused (.notEnabled "DISP.S")) ∧
  (∀ (s : State),
    dispatchEnabled s = false ∨ s.sync = false ∨ bufAt s 0 ≠ 0x43#8 ∨ (frameOf s).checksum = bufAt s 9 →
    exec .dispK s = .refused (.notEnabled "DISP.K")) ∧
  (∀ (s : State),
    dispatchEnabled s = false ∨ s.sync = false ∨ bufAt s 0 ≠ 0x43#8 ∨ (frameOf s).checksum ≠ bufAt s 9 →
    exec .dispG s = .refused (.notEnabled "DISP.G")) ∧
  (∀ (s : State) (f : Frame), dispatchEnabled s = false ∨ (f.marker = 0x43#8 ∧ s.sync = true) →
    exec (.cmdBadmarker f) s = .refused (.notEnabled "CMD.BADMARKER")) ∧
  (∀ (s : State) (f : Frame),
    dispatchEnabled s = false ∨ s.sync = false ∨ f.marker ≠ 0x43#8 ∨ f.checksum = f.chk →
    exec (.cmdBadchk f) s = .refused (.notEnabled "CMD.BADCHK")) ∧
  (∀ (s : State) (f : Frame),
    dispatchEnabled s = false ∨ s.sync = false ∨ f.marker ≠ 0x43#8 ∨ f.checksum ≠ f.chk →
    exec (.cmd f) s = .refused (.notEnabled "CMD")) ∧
  (∀ (s : State), s.mphase = .recovery ∨ s.ready = false ∨ (s.fail = true ∧ s.cfg.priority = .failFirst) →
    dispatchEnabled s = false) ∧
  (∀ (s : State), s.mphase = .recovery ∨ s.fail = false ∨ (s.ready = true ∧ s.cfg.priority = .readyFirst) →
    exec .recEnter s = .refused (.notEnabled "REC.ENTER")) ∧
  (∀ (s : State), s.mphase = .recovery ∨ s.fail = true ∨ s.ready = true →
    exec .idle s = .refused (.notEnabled "IDLE")) ∧
  (∀ (s : State), s.mphase = .run ∨ s.fail = false → exec .recIter s = .refused (.notEnabled "REC.ITER")) ∧
  (∀ (s : State), s.mphase = .run ∨ s.fail = true → exec .recExit s = .refused (.notEnabled "REC.EXIT")) ∧
  (∀ (s : State), s.cfg.tTimeout ≤ s.tcnt + 1 → exec .tick s = .refused (.notEnabled "TICK")) ∧
  (∀ (s : State), s.tcnt + 1 ≠ s.cfg.tTimeout → exec .tickExpire s = .refused (.notEnabled "TICK.EXPIRE"))

/-- `RESET` from any state (R140; every value but `sync` = 1 is the spec's decision D13, log 5). That no cell of `buf` is
listed is the model's form of R140's "unspecified" (log 4). That the parameters and
the model's own `sched`, `draw` and `ret` are kept and a new epoch of power-on bytes begins is the model's choice (log 14). -/
def Obligations.ResetFromAnyState : Prop :=
  ∀ s : State, ∃ t, exec .reset s = .next t ∧
    t.sync = true ∧ t.idx = 0 ∧ t.ready = false ∧ t.escE = false ∧ t.escN = false ∧ t.escD = false ∧ t.fail = false ∧
    t.ovr = false ∧ t.tcnt = 0 ∧ t.mphase = .run ∧ (∀ c, t.pw.get c = s.cfg.minPulse ∧ t.pwa.get c = s.cfg.minPulse) ∧
    t.doutA = false ∧ t.doutB = false ∧ t.tx = [] ∧ (∀ a, t.buf.read a = none) ∧ t.cfg = s.cfg ∧
    t.sched = s.sched ∧ t.draw = s.draw ∧ t.ret = s.ret ∧ t.epoch = s.epoch + 1

/-- The state right after reset (R140), whatever the free values of `MIN_PULSE` and `T_TIMEOUT` are, with the ranges R7
asks of them. Only `sync` = 1 is the source's; every other reset value is the spec's decision D13 (log 5). That the machine
at reset has `PW_WIDTH` 16 and `MAIN_PRIORITY` either is the model's choice of R6's arguments, by the spec's decisions D11 and
D8 (log 3). That no cell of `buf` is listed is the model's form of R140's "unspecified" (log 4). -/
def Obligations.StateResetValues : Prop :=
  State.reset.sync = true ∧ State.reset.idx = 0 ∧ State.reset.ready = false ∧
  State.reset.escE = false ∧ State.reset.escN = false ∧ State.reset.escD = false ∧ State.reset.fail = false ∧
  State.reset.ovr = false ∧ State.reset.tcnt = 0 ∧ State.reset.mphase = .run ∧
  (∀ c, State.reset.pw.get c = State.reset.cfg.minPulse ∧ State.reset.pwa.get c = State.reset.cfg.minPulse) ∧
  State.reset.doutA = false ∧ State.reset.doutB = false ∧ State.reset.tx = [] ∧
  (∀ a, State.reset.buf.read a = none) ∧
  1248 ≤ State.reset.cfg.minPulse ∧ State.reset.cfg.minPulse ≤ 65535 ∧ 1 ≤ State.reset.cfg.tTimeout ∧
  State.reset.cfg.pwWidth = 16 ∧ State.reset.cfg.priority = .either

/-- How the operating modes of R133 are left, reset aside: by no operation of the block but those R133 and R86 name. From the
recovery phase of a state of the invariant the way leads to Normal only, since `fail` was cleared by a resynchronization. -/
def Obligations.ModeTransitions : Prop :=
  ∀ (i : Instr) (s t : State), exec i s = .next t → i ≠ .reset → modeOf t ≠ modeOf s →
    ((modeOf s = .normal ∧ modeOf t = .searching ∧ t.tx = s.tx ++ [0x73#8] ∧
        (i = .dispatch ∨ i = .dispS ∨ ∃ f, i = .cmdBadmarker f)) ∨
      (modeOf s = .normal ∧ modeOf t = .tripped ∧ i = .tickExpire) ∨
      (modeOf s = .searching ∧ modeOf t = .normal ∧ s.escD = true ∧ t.tx = s.tx ++ [0xFF#8] ∧
        (i = .rx 0xFF#8 ∨ i = .rxResync ∨ i = .escFF)) ∨
      (modeOf s = .searching ∧ modeOf t = .tripped ∧ i = .tickExpire) ∨
      (modeOf s = .tripped ∧ modeOf t = .recovery ∧ i = .recEnter) ∨
      (modeOf s = .tripped ∧ modeOf t = .normal ∧ s.sync = false ∧ s.escD = true ∧ t.tx = s.tx ++ [0xFF#8] ∧
        (i = .rx 0xFF#8 ∨ i = .rxResync ∨ i = .escFF)) ∨
      (modeOf s = .recovery ∧ (modeOf t = .normal ∨ modeOf t = .searching) ∧ i = .recExit)) ∧
    (Inv s → modeOf s = .recovery → modeOf t = .normal)

/-- The configuration constraint (R7 with `T_TIMEOUT` ≥ 1; the constraint is the spec's decision D12): a configuration is built
exactly if `1248 ≤ MIN_PULSE ≤ 2^PW_WIDTH - 1` and `T_TIMEOUT ≥ 1`, with the parameters asked for; otherwise it is
refused. -/
def Obligations.ConfigurationConstraint : Prop :=
  (∀ (mp tt w : Nat) (p : MainPriority),
    (∃ c, Config.build mp tt w p = .ok c) ↔ 1248 ≤ mp ∧ mp ≤ 2 ^ w - 1 ∧ 1 ≤ tt) ∧
  (∀ (mp tt w : Nat) (p : MainPriority) (c : Config), Config.build mp tt w p = .ok c →
    c.minPulse = mp ∧ c.tTimeout = tt ∧ c.pwWidth = w ∧ c.priority = p) ∧
  (∀ c : Config, 1248 ≤ c.minPulse ∧ c.minPulse ≤ 2 ^ c.pwWidth - 1 ∧ 1 ≤ c.tTimeout)
end

