-- ==== Sys2Proof/Laws/Bytes.lean ====
section
/-! SUPPORT. The byte constants of each direction are different bytes. -/

namespace Sys2Proof.Machine

@[simp] theorem escByteE_ne_escByteN : escByteE ≠ escByteN := by decide
@[simp] theorem escByteE_ne_escByteD : escByteE ≠ escByteD := by decide
@[simp] theorem escByteE_ne_escByteFF : escByteE ≠ escByteFF := by decide
@[simp] theorem escByteN_ne_escByteE : escByteN ≠ escByteE := by decide
@[simp] theorem escByteN_ne_escByteD : escByteN ≠ escByteD := by decide
@[simp] theorem escByteN_ne_escByteFF : escByteN ≠ escByteFF := by decide
@[simp] theorem escByteD_ne_escByteE : escByteD ≠ escByteE := by decide
@[simp] theorem escByteD_ne_escByteN : escByteD ≠ escByteN := by decide
@[simp] theorem escByteD_ne_escByteFF : escByteD ≠ escByteFF := by decide
@[simp] theorem escByteFF_ne_escByteE : escByteFF ≠ escByteE := by decide
@[simp] theorem escByteFF_ne_escByteN : escByteFF ≠ escByteN := by decide
@[simp] theorem escByteFF_ne_escByteD : escByteFF ≠ escByteD := by decide
@[simp] theorem ackOk_ne_nakChk : ackOk ≠ nakChk := by decide
@[simp] theorem ackOk_ne_nakSync : ackOk ≠ nakSync := by decide
@[simp] theorem nakChk_ne_ackOk : nakChk ≠ ackOk := by decide
@[simp] theorem nakChk_ne_nakSync : nakChk ≠ nakSync := by decide
@[simp] theorem nakSync_ne_ackOk : nakSync ≠ ackOk := by decide
@[simp] theorem nakSync_ne_nakChk : nakSync ≠ nakChk := by decide

end Sys2Proof.Machine
end

