-- ==== Sys2Proof/Laws/Decode.lean ====
section
/-! SUPPORT. Small laws of the decoder and the encoder. -/

namespace Sys2Proof

/-- Fourteen bytes in wire order make their frame. -/
@[simp] theorem takeFrame_bytes (f : Frame) (rest : List Byte) : takeFrame (f.bytes ++ rest) = .ok (f, rest) := rfl

theorem bytesOfNat_length (n w : Nat) : (bytesOfNat n w).length = n := by
  induction n generalizing w with
  | zero => rfl
  | succ n ih => simp [bytesOfNat, ih]

/-- Byte `k` of a table word is its `k`-th byte from the left. -/
theorem bytesOfNat_get (n w k : Nat) (h : k < n) :
    (bytesOfNat n w)[k]'(by rw [bytesOfNat_length]; exact h) = BitVec.ofNat 8 (w / 256 ^ (n - 1 - k)) := by
  induction n generalizing k with
  | zero => omega
  | succ n ih =>
    cases k with
    | zero => simp [bytesOfNat]
    | succ k =>
      simp only [bytesOfNat, List.getElem_cons_succ]
      rw [ih k (by omega)]
      congr 3
      omega

/-- What a complete frame decodes to is one of three rows. -/
theorem decodeFrame_cases (sync : Bool) (f : Frame) :
    ((f.markerOk = false ∨ sync = false) ∧ decodeFrame sync f = .cmdBadmarker f) ∨
    (f.markerOk = true ∧ sync = true ∧ f.chkOk = true ∧ decodeFrame sync f = .cmd f) ∨
    (f.markerOk = true ∧ sync = true ∧ f.chkOk = false ∧ decodeFrame sync f = .cmdBadchk f) := by
  unfold decodeFrame
  cases hm : f.markerOk <;> cases sync <;> cases hc : f.chkOk <;> simp

end Sys2Proof
end

