-- ==== Sys2Proof/Laws/Memory.lean ====
section
/-! SUPPORT. The laws of the buffer: read after write, every other cell untouched, the canonical form kept. -/

namespace Sys2Proof.Machine

theorem read_write_same (m : Memory) (a : Nat) (b : Byte) : (m.write a b).read a = some b := by
  induction m with
  | nil => simp [Memory.write, Memory.read]
  | cons c rest ih =>
    obtain ⟨k, v⟩ := c
    simp only [Memory.write]
    split
    · simp [Memory.read]
    · split
      · simp [Memory.read]
      · rename_i h
        simp [Memory.read, Ne.symm h, ih]

theorem read_write_other (m : Memory) {a x : Nat} (b : Byte) (h : x ≠ a) : (m.write a b).read x = m.read x := by
  induction m with
  | nil => simp [Memory.write, Memory.read, Ne.symm h]
  | cons c rest ih =>
    obtain ⟨k, v⟩ := c
    simp only [Memory.write]
    split
    · simp [Memory.read, Ne.symm h]
    · split
      · rename_i e
        subst e
        simp [Memory.read, Ne.symm h]
      · simp only [Memory.read, ih]

/-- A written cell stays written. -/
theorem read_write_isSome (m : Memory) (a x : Nat) (b : Byte) :
    ((m.write a b).read x).isSome = (decide (x = a) || (m.read x).isSome) := by
  by_cases h : x = a
  · subst h
    simp [read_write_same]
  · simp [read_write_other m b h, h]

/-- Every entry of a written memory is the new one or an old one. -/
theorem mem_write {m : Memory} {a : Nat} {b : Byte} {c : Host.Cell} (h : c ∈ m.write a b) : c = (a, b) ∨ c ∈ m := by
  induction m with
  | nil => exact .inl (by simpa [Memory.write] using h)
  | cons d rest ih =>
    obtain ⟨k, v⟩ := d
    simp only [Memory.write] at h
    split at h
    · simpa using h
    · split at h
      · rcases List.mem_cons.mp h with e | e
        · exact .inl e
        · exact .inr (List.mem_cons_of_mem _ e)
      · rcases List.mem_cons.mp h with e | e
        · exact .inr (by simp [e])
        · exact (ih e).imp id (List.mem_cons_of_mem _)

theorem write_rising {m : Memory} (a : Nat) (b : Byte) (h : m.Pairwise (fun c d => c.1 < d.1)) :
    (m.write a b).Pairwise (fun c d => c.1 < d.1) := by
  induction m with
  | nil => simp [Memory.write]
  | cons c rest ih =>
    obtain ⟨k, v⟩ := c
    obtain ⟨hk, hr⟩ := List.pairwise_cons.mp h
    simp only [Memory.write]
    split
    · rename_i lt
      refine List.pairwise_cons.mpr ⟨fun d hd => ?_, h⟩
      rcases List.mem_cons.mp hd with e | e
      · simpa [e] using lt
      · exact Nat.lt_trans lt (hk d e)
    · rename_i nlt
      split
      · rename_i e
        exact List.pairwise_cons.mpr ⟨fun d hd => by simpa [e] using hk d hd, hr⟩
      · rename_i ne
        refine List.pairwise_cons.mpr ⟨fun d hd => ?_, ih hr⟩
        rcases mem_write hd with e | e
        · simp only [e]
          omega
        · exact hk d e

/-- Every write to an address of the buffer keeps the canonical form. -/
theorem write_wf {m : Memory} {a : Nat} (b : Byte) (ha : a < frameLen) (h : m.wf) : (m.write a b).wf := by
  refine ⟨write_rising a b h.1, fun c hc => ?_⟩
  rcases mem_write hc with e | e
  · simpa [e] using ha
  · exact h.2 c e

end Sys2Proof.Machine
end

