-- ==== Sys2Proof/Laws/State.lean ====
section
/-! SUPPORT. One lemma per field per update: what each primitive update of the state leaves in each field, so that no proof
unfolds a record update. -/

namespace Sys2Proof.Machine

section
variable (b : Byte) (s : State)
@[simp] theorem transmit_cfg : (transmit b s).cfg = s.cfg := rfl
@[simp] theorem transmit_buf : (transmit b s).buf = s.buf := rfl
@[simp] theorem transmit_pw : (transmit b s).pw = s.pw := rfl
@[simp] theorem transmit_idx : (transmit b s).idx = s.idx := rfl
@[simp] theorem transmit_mphase : (transmit b s).mphase = s.mphase := rfl
@[simp] theorem transmit_sync : (transmit b s).sync = s.sync := rfl
@[simp] theorem transmit_escE : (transmit b s).escE = s.escE := rfl
@[simp] theorem transmit_escN : (transmit b s).escN = s.escN := rfl
@[simp] theorem transmit_escD : (transmit b s).escD = s.escD := rfl
@[simp] theorem transmit_fail : (transmit b s).fail = s.fail := rfl
@[simp] theorem transmit_ready : (transmit b s).ready = s.ready := rfl
@[simp] theorem transmit_ovr : (transmit b s).ovr = s.ovr := rfl
@[simp] theorem transmit_tcnt : (transmit b s).tcnt = s.tcnt := rfl
@[simp] theorem transmit_pwa : (transmit b s).pwa = s.pwa := rfl
@[simp] theorem transmit_doutA : (transmit b s).doutA = s.doutA := rfl
@[simp] theorem transmit_doutB : (transmit b s).doutB = s.doutB := rfl
@[simp] theorem transmit_tx : (transmit b s).tx = s.tx ++ [b] := rfl
@[simp] theorem transmit_sched : (transmit b s).sched = s.sched := rfl
@[simp] theorem transmit_draw : (transmit b s).draw = s.draw := rfl
@[simp] theorem transmit_epoch : (transmit b s).epoch = s.epoch := rfl
@[simp] theorem transmit_ret : (transmit b s).ret = s.ret := rfl
end

section
variable (b : Byte) (s : State)
@[simp] theorem receive_cfg : (receive b s).cfg = s.cfg := rfl
@[simp] theorem receive_buf : (receive b s).buf = s.buf := rfl
@[simp] theorem receive_pw : (receive b s).pw = s.pw := rfl
@[simp] theorem receive_idx : (receive b s).idx = s.idx := rfl
@[simp] theorem receive_mphase : (receive b s).mphase = s.mphase := rfl
@[simp] theorem receive_sync : (receive b s).sync = s.sync := rfl
@[simp] theorem receive_escE : (receive b s).escE = s.escE := rfl
@[simp] theorem receive_escN : (receive b s).escN = s.escN := rfl
@[simp] theorem receive_escD : (receive b s).escD = s.escD := rfl
@[simp] theorem receive_fail : (receive b s).fail = s.fail := rfl
@[simp] theorem receive_ready : (receive b s).ready = s.ready := rfl
@[simp] theorem receive_ovr : (receive b s).ovr = s.ovr := rfl
@[simp] theorem receive_tcnt : (receive b s).tcnt = 0 := rfl
@[simp] theorem receive_pwa : (receive b s).pwa = s.pwa := rfl
@[simp] theorem receive_doutA : (receive b s).doutA = s.doutA := rfl
@[simp] theorem receive_doutB : (receive b s).doutB = s.doutB := rfl
@[simp] theorem receive_tx : (receive b s).tx = s.tx ++ [b] := rfl
@[simp] theorem receive_sched : (receive b s).sched = s.sched := rfl
@[simp] theorem receive_draw : (receive b s).draw = s.draw := rfl
@[simp] theorem receive_epoch : (receive b s).epoch = s.epoch := rfl
@[simp] theorem receive_ret : (receive b s).ret = s.ret := rfl
end

section
variable (s : State)
@[simp] theorem consume_cfg : (consume s).cfg = s.cfg := rfl
@[simp] theorem consume_buf : (consume s).buf = s.buf := rfl
@[simp] theorem consume_pw : (consume s).pw = s.pw := rfl
@[simp] theorem consume_idx : (consume s).idx = 0 := rfl
@[simp] theorem consume_mphase : (consume s).mphase = s.mphase := rfl
@[simp] theorem consume_sync : (consume s).sync = s.sync := rfl
@[simp] theorem consume_escE : (consume s).escE = s.escE := rfl
@[simp] theorem consume_escN : (consume s).escN = s.escN := rfl
@[simp] theorem consume_escD : (consume s).escD = s.escD := rfl
@[simp] theorem consume_fail : (consume s).fail = s.fail := rfl
@[simp] theorem consume_ready : (consume s).ready = false := rfl
@[simp] theorem consume_ovr : (consume s).ovr = s.ovr := rfl
@[simp] theorem consume_tcnt : (consume s).tcnt = 0 := rfl
@[simp] theorem consume_pwa : (consume s).pwa = s.pwa := rfl
@[simp] theorem consume_doutA : (consume s).doutA = s.doutA := rfl
@[simp] theorem consume_doutB : (consume s).doutB = s.doutB := rfl
@[simp] theorem consume_tx : (consume s).tx = s.tx := rfl
@[simp] theorem consume_sched : (consume s).sched = s.sched := rfl
@[simp] theorem consume_draw : (consume s).draw = s.draw := rfl
@[simp] theorem consume_epoch : (consume s).epoch = s.epoch := rfl
@[simp] theorem consume_ret : (consume s).ret = s.ret := rfl
end

section
variable (s : State)
@[simp] theorem clearProgress_cfg : (clearProgress s).cfg = s.cfg := rfl
@[simp] theorem clearProgress_buf : (clearProgress s).buf = s.buf := rfl
@[simp] theorem clearProgress_pw : (clearProgress s).pw = s.pw := rfl
@[simp] theorem clearProgress_idx : (clearProgress s).idx = s.idx := rfl
@[simp] theorem clearProgress_mphase : (clearProgress s).mphase = s.mphase := rfl
@[simp] theorem clearProgress_sync : (clearProgress s).sync = s.sync := rfl
@[simp] theorem clearProgress_escE : (clearProgress s).escE = false := rfl
@[simp] theorem clearProgress_escN : (clearProgress s).escN = false := rfl
@[simp] theorem clearProgress_escD : (clearProgress s).escD = false := rfl
@[simp] theorem clearProgress_fail : (clearProgress s).fail = s.fail := rfl
@[simp] theorem clearProgress_ready : (clearProgress s).ready = s.ready := rfl
@[simp] theorem clearProgress_ovr : (clearProgress s).ovr = s.ovr := rfl
@[simp] theorem clearProgress_tcnt : (clearProgress s).tcnt = s.tcnt := rfl
@[simp] theorem clearProgress_pwa : (clearProgress s).pwa = s.pwa := rfl
@[simp] theorem clearProgress_doutA : (clearProgress s).doutA = s.doutA := rfl
@[simp] theorem clearProgress_doutB : (clearProgress s).doutB = s.doutB := rfl
@[simp] theorem clearProgress_tx : (clearProgress s).tx = s.tx := rfl
@[simp] theorem clearProgress_sched : (clearProgress s).sched = s.sched := rfl
@[simp] theorem clearProgress_draw : (clearProgress s).draw = s.draw := rfl
@[simp] theorem clearProgress_epoch : (clearProgress s).epoch = s.epoch := rfl
@[simp] theorem clearProgress_ret : (clearProgress s).ret = s.ret := rfl
end

section
variable (c : Channel) (off : Nat) (s : State)
@[simp] theorem setChannel_cfg : (setChannel c off s).cfg = s.cfg := rfl
@[simp] theorem setChannel_buf : (setChannel c off s).buf = s.buf := rfl
@[simp] theorem setChannel_pw : (setChannel c off s).pw = s.pw.setOffset s.cfg c off := rfl
@[simp] theorem setChannel_idx : (setChannel c off s).idx = s.idx := rfl
@[simp] theorem setChannel_mphase : (setChannel c off s).mphase = s.mphase := rfl
@[simp] theorem setChannel_sync : (setChannel c off s).sync = s.sync := rfl
@[simp] theorem setChannel_escE : (setChannel c off s).escE = s.escE := rfl
@[simp] theorem setChannel_escN : (setChannel c off s).escN = s.escN := rfl
@[simp] theorem setChannel_escD : (setChannel c off s).escD = s.escD := rfl
@[simp] theorem setChannel_fail : (setChannel c off s).fail = s.fail := rfl
@[simp] theorem setChannel_ready : (setChannel c off s).ready = s.ready := rfl
@[simp] theorem setChannel_ovr : (setChannel c off s).ovr = s.ovr := rfl
@[simp] theorem setChannel_tcnt : (setChannel c off s).tcnt = s.tcnt := rfl
@[simp] theorem setChannel_pwa : (setChannel c off s).pwa = s.pwa := rfl
@[simp] theorem setChannel_doutA : (setChannel c off s).doutA = s.doutA := rfl
@[simp] theorem setChannel_doutB : (setChannel c off s).doutB = s.doutB := rfl
@[simp] theorem setChannel_tx : (setChannel c off s).tx = s.tx := rfl
@[simp] theorem setChannel_sched : (setChannel c off s).sched = s.sched := rfl
@[simp] theorem setChannel_draw : (setChannel c off s).draw = s.draw := rfl
@[simp] theorem setChannel_epoch : (setChannel c off s).epoch = s.epoch := rfl
@[simp] theorem setChannel_ret : (setChannel c off s).ret = s.ret := rfl
end

section
variable (c : Channel) (s : State)
@[simp] theorem setChannelFree_cfg : (setChannelFree c s).cfg = s.cfg := rfl
@[simp] theorem setChannelFree_buf : (setChannelFree c s).buf = s.buf := rfl
@[simp] theorem setChannelFree_pw : (setChannelFree c s).pw =
    s.pw.set c (Config.freeCompare s.draw % 2 ^ s.cfg.pwWidth) := rfl
@[simp] theorem setChannelFree_idx : (setChannelFree c s).idx = s.idx := rfl
@[simp] theorem setChannelFree_mphase : (setChannelFree c s).mphase = s.mphase := rfl
@[simp] theorem setChannelFree_sync : (setChannelFree c s).sync = s.sync := rfl
@[simp] theorem setChannelFree_escE : (setChannelFree c s).escE = s.escE := rfl
@[simp] theorem setChannelFree_escN : (setChannelFree c s).escN = s.escN := rfl
@[simp] theorem setChannelFree_escD : (setChannelFree c s).escD = s.escD := rfl
@[simp] theorem setChannelFree_fail : (setChannelFree c s).fail = s.fail := rfl
@[simp] theorem setChannelFree_ready : (setChannelFree c s).ready = s.ready := rfl
@[simp] theorem setChannelFree_ovr : (setChannelFree c s).ovr = s.ovr := rfl
@[simp] theorem setChannelFree_tcnt : (setChannelFree c s).tcnt = s.tcnt := rfl
@[simp] theorem setChannelFree_pwa : (setChannelFree c s).pwa = s.pwa := rfl
@[simp] theorem setChannelFree_doutA : (setChannelFree c s).doutA = s.doutA := rfl
@[simp] theorem setChannelFree_doutB : (setChannelFree c s).doutB = s.doutB := rfl
@[simp] theorem setChannelFree_tx : (setChannelFree c s).tx = s.tx := rfl
@[simp] theorem setChannelFree_sched : (setChannelFree c s).sched = s.sched := rfl
@[simp] theorem setChannelFree_draw : (setChannelFree c s).draw = s.draw + 1 := rfl
@[simp] theorem setChannelFree_epoch : (setChannelFree c s).epoch = s.epoch := rfl
@[simp] theorem setChannelFree_ret : (setChannelFree c s).ret = s.ret := rfl
end

section
variable (s : State)
@[simp] theorem neutralizeAll_cfg : (neutralizeAll s).cfg = s.cfg := rfl
@[simp] theorem neutralizeAll_buf : (neutralizeAll s).buf = s.buf := rfl
@[simp] theorem neutralizeAll_pw : (neutralizeAll s).pw = Channels.fill s.cfg.minPulse := rfl
@[simp] theorem neutralizeAll_idx : (neutralizeAll s).idx = s.idx := rfl
@[simp] theorem neutralizeAll_mphase : (neutralizeAll s).mphase = s.mphase := rfl
@[simp] theorem neutralizeAll_sync : (neutralizeAll s).sync = s.sync := rfl
@[simp] theorem neutralizeAll_escE : (neutralizeAll s).escE = s.escE := rfl
@[simp] theorem neutralizeAll_escN : (neutralizeAll s).escN = s.escN := rfl
@[simp] theorem neutralizeAll_escD : (neutralizeAll s).escD = s.escD := rfl
@[simp] theorem neutralizeAll_fail : (neutralizeAll s).fail = s.fail := rfl
@[simp] theorem neutralizeAll_ready : (neutralizeAll s).ready = s.ready := rfl
@[simp] theorem neutralizeAll_ovr : (neutralizeAll s).ovr = s.ovr := rfl
@[simp] theorem neutralizeAll_tcnt : (neutralizeAll s).tcnt = s.tcnt := rfl
@[simp] theorem neutralizeAll_pwa : (neutralizeAll s).pwa = s.pwa := rfl
@[simp] theorem neutralizeAll_doutA : (neutralizeAll s).doutA = s.doutA := rfl
@[simp] theorem neutralizeAll_doutB : (neutralizeAll s).doutB = s.doutB := rfl
@[simp] theorem neutralizeAll_tx : (neutralizeAll s).tx = s.tx := rfl
@[simp] theorem neutralizeAll_sched : (neutralizeAll s).sched = s.sched := rfl
@[simp] theorem neutralizeAll_draw : (neutralizeAll s).draw = s.draw := rfl
@[simp] theorem neutralizeAll_epoch : (neutralizeAll s).epoch = s.epoch := rfl
@[simp] theorem neutralizeAll_ret : (neutralizeAll s).ret = s.ret := rfl
end

section
variable (b : Byte) (s : State)
@[simp] theorem setDigitalOutputs_cfg : (setDigitalOutputs b s).cfg = s.cfg := rfl
@[simp] theorem setDigitalOutputs_buf : (setDigitalOutputs b s).buf = s.buf := rfl
@[simp] theorem setDigitalOutputs_pw : (setDigitalOutputs b s).pw = s.pw := rfl
@[simp] theorem setDigitalOutputs_idx : (setDigitalOutputs b s).idx = s.idx := rfl
@[simp] theorem setDigitalOutputs_mphase : (setDigitalOutputs b s).mphase = s.mphase := rfl
@[simp] theorem setDigitalOutputs_sync : (setDigitalOutputs b s).sync = s.sync := rfl
@[simp] theorem setDigitalOutputs_escE : (setDigitalOutputs b s).escE = s.escE := rfl
@[simp] theorem setDigitalOutputs_escN : (setDigitalOutputs b s).escN = s.escN := rfl
@[simp] theorem setDigitalOutputs_escD : (setDigitalOutputs b s).escD = s.escD := rfl
@[simp] theorem setDigitalOutputs_fail : (setDigitalOutputs b s).fail = s.fail := rfl
@[simp] theorem setDigitalOutputs_ready : (setDigitalOutputs b s).ready = s.ready := rfl
@[simp] theorem setDigitalOutputs_ovr : (setDigitalOutputs b s).ovr = s.ovr := rfl
@[simp] theorem setDigitalOutputs_tcnt : (setDigitalOutputs b s).tcnt = s.tcnt := rfl
@[simp] theorem setDigitalOutputs_pwa : (setDigitalOutputs b s).pwa = s.pwa := rfl
@[simp] theorem setDigitalOutputs_doutA : (setDigitalOutputs b s).doutA = switchA b := rfl
@[simp] theorem setDigitalOutputs_doutB : (setDigitalOutputs b s).doutB = switchB b := rfl
@[simp] theorem setDigitalOutputs_tx : (setDigitalOutputs b s).tx = s.tx := rfl
@[simp] theorem setDigitalOutputs_sched : (setDigitalOutputs b s).sched = s.sched := rfl
@[simp] theorem setDigitalOutputs_draw : (setDigitalOutputs b s).draw = s.draw := rfl
@[simp] theorem setDigitalOutputs_epoch : (setDigitalOutputs b s).epoch = s.epoch := rfl
@[simp] theorem setDigitalOutputs_ret : (setDigitalOutputs b s).ret = s.ret := rfl
end

section
variable (c : Channel) (s : State)
@[simp] theorem commitChannel_cfg : (commitChannel c s).cfg = s.cfg := rfl
@[simp] theorem commitChannel_buf : (commitChannel c s).buf = s.buf := rfl
@[simp] theorem commitChannel_pw : (commitChannel c s).pw = s.pw := rfl
@[simp] theorem commitChannel_idx : (commitChannel c s).idx = s.idx := rfl
@[simp] theorem commitChannel_mphase : (commitChannel c s).mphase = s.mphase := rfl
@[simp] theorem commitChannel_sync : (commitChannel c s).sync = s.sync := rfl
@[simp] theorem commitChannel_escE : (commitChannel c s).escE = s.escE := rfl
@[simp] theorem commitChannel_escN : (commitChannel c s).escN = s.escN := rfl
@[simp] theorem commitChannel_escD : (commitChannel c s).escD = s.escD := rfl
@[simp] theorem commitChannel_fail : (commitChannel c s).fail = s.fail := rfl
@[simp] theorem commitChannel_ready : (commitChannel c s).ready = s.ready := rfl
@[simp] theorem commitChannel_ovr : (commitChannel c s).ovr = s.ovr := rfl
@[simp] theorem commitChannel_tcnt : (commitChannel c s).tcnt = s.tcnt := rfl
@[simp] theorem commitChannel_pwa : (commitChannel c s).pwa = s.pwa.set c (s.pw.get c) := rfl
@[simp] theorem commitChannel_doutA : (commitChannel c s).doutA = s.doutA := rfl
@[simp] theorem commitChannel_doutB : (commitChannel c s).doutB = s.doutB := rfl
@[simp] theorem commitChannel_tx : (commitChannel c s).tx = s.tx := rfl
@[simp] theorem commitChannel_sched : (commitChannel c s).sched = s.sched := rfl
@[simp] theorem commitChannel_draw : (commitChannel c s).draw = s.draw := rfl
@[simp] theorem commitChannel_epoch : (commitChannel c s).epoch = s.epoch := rfl
@[simp] theorem commitChannel_ret : (commitChannel c s).ret = s.ret := rfl
end

section
variable (s : State)
@[simp] theorem advanceIdx_cfg : (advanceIdx s).cfg = s.cfg := rfl
@[simp] theorem advanceIdx_buf : (advanceIdx s).buf = s.buf := rfl
@[simp] theorem advanceIdx_pw : (advanceIdx s).pw = s.pw := rfl
@[simp] theorem advanceIdx_idx : (advanceIdx s).idx = idxSucc s.idx := rfl
@[simp] theorem advanceIdx_mphase : (advanceIdx s).mphase = s.mphase := rfl
@[simp] theorem advanceIdx_sync : (advanceIdx s).sync = s.sync := rfl
@[simp] theorem advanceIdx_escE : (advanceIdx s).escE = s.escE := rfl
@[simp] theorem advanceIdx_escN : (advanceIdx s).escN = s.escN := rfl
@[simp] theorem advanceIdx_escD : (advanceIdx s).escD = s.escD := rfl
@[simp] theorem advanceIdx_fail : (advanceIdx s).fail = s.fail := rfl
@[simp] theorem advanceIdx_ready : (advanceIdx s).ready = readyAfter (idxSucc s.idx) s.ready := rfl
@[simp] theorem advanceIdx_ovr : (advanceIdx s).ovr = s.ovr := rfl
@[simp] theorem advanceIdx_tcnt : (advanceIdx s).tcnt = s.tcnt := rfl
@[simp] theorem advanceIdx_pwa : (advanceIdx s).pwa = s.pwa := rfl
@[simp] theorem advanceIdx_doutA : (advanceIdx s).doutA = s.doutA := rfl
@[simp] theorem advanceIdx_doutB : (advanceIdx s).doutB = s.doutB := rfl
@[simp] theorem advanceIdx_tx : (advanceIdx s).tx = s.tx := rfl
@[simp] theorem advanceIdx_sched : (advanceIdx s).sched = s.sched := rfl
@[simp] theorem advanceIdx_draw : (advanceIdx s).draw = s.draw := rfl
@[simp] theorem advanceIdx_epoch : (advanceIdx s).epoch = s.epoch := rfl
@[simp] theorem advanceIdx_ret : (advanceIdx s).ret = s.ret := rfl
end

end Sys2Proof.Machine
end

