-- ==== Sys2Proof/Laws/Ops.lean ====
section
/-! SUPPORT. One lemma per shared operation: all it can do, so that proofs about the meanings cite it. -/

namespace Sys2Proof.Machine

/-- An operation that answers a next state was enabled, and the answer is its effect. -/
theorem whenEnabled_eq_next {mn : String} {c : Bool} {o : Out} {t : State} :
    whenEnabled mn c o = .next t ↔ c = true ∧ o = .next t := by
  cases c <;> simp [whenEnabled]

@[simp] theorem whenEnabled_true (mn : String) (o : Out) : whenEnabled mn true o = o := rfl

@[simp] theorem whenEnabled_false (mn : String) (o : Out) : whenEnabled mn false o = .refused (.notEnabled mn) := rfl

/-- At an address of the buffer the store happens; nothing else changes. -/
theorem memWrite_of_lt {a : Nat} (b : Byte) (s : State) (h : a < frameLen) :
    memWrite a b s = .next { s with buf := s.buf.write a b } := by
  simp [memWrite, h]

theorem idxSucc_of_lt {i : Fin 15} (h : i.val ≤ 13) : (idxSucc i).val = i.val + 1 := by
  have : i.val + 1 < 15 := by omega
  simp [idxSucc, this]

/-- While a cell is free an append answers a next state: echo, timer reset, store, advance. -/
theorem append_of_le {s : State} (b : Byte) (h : s.idx.val ≤ 13) :
    append b s = .next { receive b s with
      buf := s.buf.write s.idx.val b
      idx := idxSucc s.idx
      ready := readyAfter (idxSucc s.idx) s.ready } := by
  have : s.idx.val < frameLen := by simp only [frameLen]; omega
  simp [append, memWrite_of_lt b _ this, advanceIdx]

theorem overrun_eq (b : Byte) (s : State) : overrun b s = { receive b s with ovr := true } := rfl

theorem resync_eq (s : State) : resync s =
    { s with
      tx := s.tx ++ [escByteFF], tcnt := 0, sync := true, idx := 0, fail := false
      escE := false, escN := false, escD := false } := rfl

theorem search_of_completes {b : Byte} {s : State} (h : completesEscape b s.escD = true) : search b s = resync s := by
  simp [search, h]

theorem search_of_not_completes {b : Byte} {s : State} (h : completesEscape b s.escD = false) :
    search b s = scan b s := by
  simp [search, h]

theorem rejectFraming_eq (s : State) : rejectFraming s =
    { s with idx := 0, ready := false, tcnt := 0, tx := s.tx ++ [nakSync], sync := false } := rfl

theorem rejectChecksum_eq (s : State) : rejectChecksum s =
    { s with idx := 0, ready := false, tcnt := 0, tx := s.tx ++ [nakChk] } := rfl

theorem acceptFrame_eq (f : Frame) (s : State) : acceptFrame f s =
    { s with
      idx := 0, ready := false, tcnt := 0, tx := s.tx ++ [ackOk]
      pw := ⟨s.cfg.minPulse - mapOffset f.pos1, s.cfg.minPulse - mapOffset f.pos2, s.cfg.minPulse - mapOffset f.pos3,
        s.cfg.minPulse - mapOffset f.pos4, s.cfg.minPulse - mapOffset f.pos5, s.cfg.minPulse - mapOffset f.pos6⟩
      doutA := switchA f.sw, doutB := switchB f.sw, escE := false, escN := false, escD := false } := rfl

theorem expire_eq (s : State) : expire s = { s with fail := true, tcnt := 0 } := rfl

/-- One dispatch is exactly one of its three outcomes. -/
theorem dispatchFrame_cases (f : Frame) (s : State) :
    ((f.markerOk = false ∨ s.sync = false) ∧ dispatchFrame f s = rejectFraming s) ∨
    (f.markerOk = true ∧ s.sync = true ∧ f.chkOk = false ∧ dispatchFrame f s = rejectChecksum s) ∨
    (f.markerOk = true ∧ s.sync = true ∧ f.chkOk = true ∧ dispatchFrame f s = acceptFrame f s) := by
  unfold dispatchFrame
  cases hm : f.markerOk <;> cases hs : s.sync <;> cases hc : f.chkOk <;> simp

theorem dispatchFrame_of_framing {f : Frame} {s : State} (h : f.markerOk = false ∨ s.sync = false) :
    dispatchFrame f s = rejectFraming s := by
  unfold dispatchFrame
  rw [if_pos h]

theorem dispatchFrame_of_checksum {f : Frame} {s : State} (hm : f.markerOk = true) (hs : s.sync = true)
    (hc : f.chkOk = false) : dispatchFrame f s = rejectChecksum s := by
  simp [dispatchFrame, hm, hs, hc]

theorem dispatchFrame_of_good {f : Frame} {s : State} (hm : f.markerOk = true) (hs : s.sync = true)
    (hc : f.chkOk = true) : dispatchFrame f s = acceptFrame f s := by
  simp [dispatchFrame, hm, hs, hc]

@[simp] theorem Channels.get_fill (v : Nat) (c : Channel) : (Channels.fill v).get c = v := by cases c <;> rfl

@[simp] theorem Channels.get_set_same (v : Channels) (c : Channel) (x : Nat) : (v.set c x).get c = x := by
  cases c <;> rfl

theorem Channels.get_set_other (v : Channels) {c d : Channel} (x : Nat) (h : d ≠ c) : (v.set c x).get d = v.get d := by
  cases c <;> cases d <;> first | rfl | exact absurd rfl h

/-- Two register files with the same six values are the same. -/
theorem Channels.ext_get {v w : Channels} (h : ∀ c, v.get c = w.get c) : v = w := by
  obtain ⟨a1, a2, a3, a4, a5, a6⟩ := v
  obtain ⟨b1, b2, b3, b4, b5, b6⟩ := w
  have h1 := h .ch1
  have h2 := h .ch2
  have h3 := h .ch3
  have h4 := h .ch4
  have h5 := h .ch5
  have h6 := h .ch6
  simp_all [Channels.get]

theorem mapOffset_le (p : Byte) : mapOffset p ≤ maxOffset := by
  simp only [mapOffset, posClip, posScale, maxOffset]
  omega

/-- After the six writes of an accepted frame each channel holds `MIN_PULSE` minus its mapped position. -/
theorem applyPositions_get (f : Frame) (s : State) (c : Channel) :
    (applyPositions f s).pw.get c = s.cfg.minPulse - mapOffset (f.pos c) := by
  cases c <;> rfl

/-- Fourteen bytes of the buffer are always a frame, and it is the buffer's. -/
theorem bufBytes_eq_frame_bytes (s : State) : bufBytes s = (frameOf s).bytes := rfl

end Sys2Proof.Machine
end

