-- ==== Sys2Proof/Laws/Frames.lean ====
section
/-! SUPPORT. Small laws of frames: the tests of the dispatcher and the fields of the frame in the buffer. -/

namespace Sys2Proof

theorem Frame.markerOk_iff (f : Frame) : f.markerOk = true ↔ f.marker = Machine.marker := by simp [Frame.markerOk]

theorem Frame.markerOk_false_iff (f : Frame) : f.markerOk = false ↔ f.marker ≠ Machine.marker := by
  simp [Frame.markerOk]

theorem Frame.chkOk_iff (f : Frame) : f.chkOk = true ↔ f.checksum = f.chk := by simp [Frame.chkOk]

theorem Frame.chkOk_false_iff (f : Frame) : f.chkOk = false ↔ f.checksum ≠ f.chk := by simp [Frame.chkOk]

namespace Machine

section
variable (s : State)
@[simp] theorem frameOf_marker : (frameOf s).marker = bufAt s 0 := rfl
@[simp] theorem frameOf_pos1 : (frameOf s).pos1 = bufAt s 1 := rfl
@[simp] theorem frameOf_pos2 : (frameOf s).pos2 = bufAt s 2 := rfl
@[simp] theorem frameOf_pos3 : (frameOf s).pos3 = bufAt s 3 := rfl
@[simp] theorem frameOf_pos4 : (frameOf s).pos4 = bufAt s 4 := rfl
@[simp] theorem frameOf_pos5 : (frameOf s).pos5 = bufAt s 5 := rfl
@[simp] theorem frameOf_pos6 : (frameOf s).pos6 = bufAt s 6 := rfl
@[simp] theorem frameOf_sw : (frameOf s).sw = bufAt s 7 := rfl
@[simp] theorem frameOf_rsv : (frameOf s).rsv = bufAt s 8 := rfl
@[simp] theorem frameOf_chk : (frameOf s).chk = bufAt s 9 := rfl
end

/-- Output A is bit 6 of the switch byte (spec/30_encoding.md R64). -/
theorem switchA_eq_bit (b : Byte) : switchA b = b.getLsbD 6 := by
  revert b
  decide

/-- Output B is bit 7 of the switch byte (spec/30_encoding.md R64). -/
theorem switchB_eq_bit (b : Byte) : switchB b = b.getLsbD 7 := by
  revert b
  decide

end Machine

end Sys2Proof
end

