-- ==== Sys2Proof/Laws/Exec.lean ====
section
/-! SUPPORT. The inversion lemma of `exec`: everything an instruction can do when it answers a next state, with the
conditions under which it does so. Proofs about all instructions take this apart instead of unfolding the meanings. -/

namespace Sys2Proof.Machine

/-- `Effect i s t`: instruction `i` takes state `s` to state `t`. -/
inductive Effect : Instr → State → State → Prop where
  | append {i : Instr} {s : State} (b : Byte) (hi : i = .rx b ∨ i = .rxAppend b ∨ i = .data b) (hs : s.sync = true)
      (hx : s.idx.val ≤ 13) :
      Effect i s { receive b s with
        buf := s.buf.write s.idx.val b
        idx := idxSucc s.idx
        ready := readyAfter (idxSucc s.idx) s.ready }
  | overrun {i : Instr} {s : State} (b : Byte) (hi : i = .rx b ∨ i = .rxOvr b ∨ i = .overrun b) (hs : s.sync = true)
      (hx : s.idx = 14) : Effect i s (overrun b s)
  | scan {i : Instr} {s : State} (b : Byte)
      (hi : i = .rx b ∨ i = .rxScan b ∨ i = .noise b ∨ (i = .escE ∧ b = escByteE) ∨ (i = .escN ∧ b = escByteN) ∨
        (i = .escD ∧ b = escByteD) ∨ (i = .escFF ∧ b = escByteFF))
      (hs : s.sync = false) (hc : completesEscape b s.escD = false) : Effect i s (scan b s)
  | resync {i : Instr} {s : State} (hi : i = .rx escByteFF ∨ i = .rxResync ∨ i = .escFF) (hs : s.sync = false)
      (hd : s.escD = true) : Effect i s (resync s)
  | framing {i : Instr} {s : State} (f : Frame)
      (hi : (i = .dispatch ∧ f = frameOf s) ∨ (i = .dispS ∧ f = frameOf s) ∨ i = .cmdBadmarker f)
      (he : dispatchEnabled s = true) (hf : f.markerOk = false ∨ s.sync = false) : Effect i s (rejectFraming s)
  | checksum {i : Instr} {s : State} (f : Frame)
      (hi : (i = .dispatch ∧ f = frameOf s) ∨ (i = .dispK ∧ f = frameOf s) ∨ i = .cmdBadchk f)
      (he : dispatchEnabled s = true) (hs : s.sync = true) (hm : f.markerOk = true) (hc : f.chkOk = false) :
      Effect i s (rejectChecksum s)
  | accept {i : Instr} {s : State} (f : Frame)
      (hi : (i = .dispatch ∧ f = frameOf s) ∨ (i = .dispG ∧ f = frameOf s) ∨ i = .cmd f)
      (he : dispatchEnabled s = true) (hs : s.sync = true) (hm : f.markerOk = true) (hc : f.chkOk = true) :
      Effect i s (acceptFrame f s)
  | transmit {i : Instr} {s : State} (b : Byte)
      (hi : (i = .ackG ∧ b = ackOk) ∨ (i = .nakK ∧ b = nakChk) ∨ (i = .nakS ∧ b = nakSync) ∨ i = .echo b) :
      Effect i s (transmit b s)
  | tick {s : State} (h : tickEnabled s = true) : Effect .tick s { s with tcnt := s.tcnt + 1 }
  | expire {s : State} (h : expireEnabled s = true) : Effect .tickExpire s (expire s)
  | enter {s : State} (h : recEnterEnabled s = true) :
      Effect .recEnter s { neutralizeAll s with mphase := .recovery }
  | iter {s : State} (h : recIterEnabled s = true) : Effect .recIter s (clearProgress { s with sync := false })
  | exit {s : State} (h : recExitEnabled s = true) : Effect .recExit s { s with mphase := .run }
  | idle {s : State} (h : idleEnabled s = true) : Effect .idle s s
  | period {s : State} (c : Channel) : Effect (.period c) s (commitChannel c s)
  | reset {s : State} : Effect .reset s
      { State.resetOf s.cfg with sched := s.sched, draw := s.draw, epoch := s.epoch + 1, ret := s.ret }
  | map {s : State} (p : Byte) : Effect (.map p) s { s with ret := mapOffset p }
  | chk {s : State} : Effect .chk s { s with ret := (frameOf s).checksum.toNat }
  | setChannel {s : State} (c : Channel) (off : Nat) (h : off ≤ maxOffset) :
      Effect (.setChannel c off) s (setChannel c off s)
  | setChannelFree {s : State} (c : Channel) (off : Nat) (h : ¬ off ≤ maxOffset) :
      Effect (.setChannel c off) s (setChannelFree c s)
  | neutralizeAll {s : State} : Effect .neutralizeAll s (neutralizeAll s)
  | setDigitalOutputs {s : State} (b : Byte) : Effect (.setDigitalOutputs b) s (setDigitalOutputs b s)

/-- A byte received while Searching is scanned or resynchronizes. -/
theorem search_effect {i : Instr} {s : State} (b : Byte)
    (hi : i = .rx b ∨ i = .rxScan b ∨ i = .noise b ∨ (i = .escE ∧ b = escByteE) ∨ (i = .escN ∧ b = escByteN) ∨
      (i = .escD ∧ b = escByteD) ∨ (i = .escFF ∧ b = escByteFF))
    (hr : completesEscape b s.escD = true → i = .rx escByteFF ∨ i = .rxResync ∨ i = .escFF) (hs : s.sync = false) :
    Effect i s (search b s) := by
  cases hc : completesEscape b s.escD with
  | false =>
    rw [search_of_not_completes hc]
    exact .scan b hi hs hc
  | true =>
    rw [search_of_completes hc]
    refine .resync (hr hc) hs ?_
    simp only [completesEscape, Bool.and_eq_true] at hc
    exact hc.1

/-- One dispatch is a framing error, a checksum error or an accepted frame. -/
theorem dispatchFrame_effect {s : State} (he : dispatchEnabled s = true) :
    Effect .dispatch s (dispatchFrame (frameOf s) s) := by
  rcases dispatchFrame_cases (frameOf s) s with ⟨h, e⟩ | ⟨hm, hs, hc, e⟩ | ⟨hm, hs, hc, e⟩ <;> rw [e]
  · exact .framing _ (.inl ⟨rfl, rfl⟩) he h
  · exact .checksum _ (.inl ⟨rfl, rfl⟩) he hs hm hc
  · exact .accept _ (.inl ⟨rfl, rfl⟩) he hs hm hc

/-- A reception is one of its four effects. -/
theorem execRx_effect {b : Byte} {s t : State} (h : execRx b s = .next t) : Effect (.rx b) s t := by
  unfold execRx at h
  by_cases hs : s.sync = true
  · simp only [hs, if_true] at h
    by_cases hx : s.idx.val ≤ 13
    · rw [if_pos hx, append_of_le b hx] at h
      cases h
      exact .append b (.inl rfl) hs hx
    · rw [if_neg hx] at h
      cases h
      exact .overrun b (.inl rfl) hs (Fin.ext (by have := s.idx.isLt; show s.idx.val = 14; omega))
  · have hs : s.sync = false := by simpa using hs
    simp only [hs, Bool.false_eq_true, if_false] at h
    cases h
    refine search_effect b (.inl rfl) (fun hc => .inl ?_) hs
    simp only [completesEscape, Bool.and_eq_true, beq_iff_eq] at hc
    rw [hc.2]

/-- Everything an instruction can do. -/
theorem exec_effect {i : Instr} {s t : State} (h : exec i s = .next t) : Effect i s t := by
  cases i with
  | cmd f =>
    obtain ⟨hc, e⟩ := whenEnabled_eq_next.mp h
    cases e
    simp only [Bool.and_eq_true] at hc
    exact .accept f (.inr (.inr rfl)) hc.1.1.1 hc.1.1.2 hc.1.2 hc.2
  | cmdBadchk f =>
    obtain ⟨hc, e⟩ := whenEnabled_eq_next.mp h
    cases e
    simp only [Bool.and_eq_true, Bool.not_eq_true'] at hc
    exact .checksum f (.inr (.inr rfl)) hc.1.1.1 hc.1.1.2 hc.1.2 hc.2
  | cmdBadmarker f =>
    obtain ⟨hc, e⟩ := whenEnabled_eq_next.mp h
    cases e
    simp only [Bool.and_eq_true, Bool.or_eq_true, Bool.not_eq_true'] at hc
    exact .framing f (.inr (.inr rfl)) hc.1 hc.2
  | escE =>
    obtain ⟨hc, e⟩ := whenEnabled_eq_next.mp h
    cases e
    exact search_effect escByteE (by simp) (by simp [completesEscape]) (by simpa using hc)
  | escN =>
    obtain ⟨hc, e⟩ := whenEnabled_eq_next.mp h
    cases e
    exact search_effect escByteN (by simp) (by simp [completesEscape]) (by simpa using hc)
  | escD =>
    obtain ⟨hc, e⟩ := whenEnabled_eq_next.mp h
    cases e
    exact search_effect escByteD (by simp) (by simp [completesEscape]) (by simpa using hc)
  | escFF =>
    obtain ⟨hc, e⟩ := whenEnabled_eq_next.mp h
    cases e
    exact search_effect escByteFF (by simp) (by simp) (by simpa using hc)
  | noise b =>
    obtain ⟨hc, e⟩ := whenEnabled_eq_next.mp h
    cases e
    simp only [noiseSelected, Bool.and_eq_true, Bool.not_eq_true'] at hc
    refine search_effect b (by simp) (fun h => ?_) hc.1.1.1.1
    have := hc.2
    simp_all [completesEscape]
  | data b =>
    obtain ⟨hc, e⟩ := whenEnabled_eq_next.mp h
    simp only [appendEnabled, Bool.and_eq_true, decide_eq_true_eq] at hc
    rw [append_of_le b hc.2] at e
    cases e
    exact .append b (by simp) hc.1 hc.2
  | overrun b =>
    obtain ⟨hc, e⟩ := whenEnabled_eq_next.mp h
    cases e
    simp only [ovrEnabled, Bool.and_eq_true, beq_iff_eq] at hc
    exact .overrun b (by simp) hc.1 hc.2
  | ackG => cases h; exact .transmit _ (by simp)
  | nakK => cases h; exact .transmit _ (by simp)
  | nakS => cases h; exact .transmit _ (by simp)
  | echo b => cases h; exact .transmit b (by simp)
  | rx b => exact execRx_effect h
  | rxAppend b =>
    obtain ⟨hc, e⟩ := whenEnabled_eq_next.mp h
    simp only [appendEnabled, Bool.and_eq_true, decide_eq_true_eq] at hc
    rw [append_of_le b hc.2] at e
    cases e
    exact .append b (by simp) hc.1 hc.2
  | rxOvr b =>
    obtain ⟨hc, e⟩ := whenEnabled_eq_next.mp h
    cases e
    simp only [ovrEnabled, Bool.and_eq_true, beq_iff_eq] at hc
    exact .overrun b (by simp) hc.1 hc.2
  | rxScan b =>
    obtain ⟨hc, e⟩ := whenEnabled_eq_next.mp h
    cases e
    simp only [scanEnabled, Bool.and_eq_true, Bool.not_eq_true'] at hc
    exact .scan b (by simp) hc.1 hc.2
  | rxResync =>
    obtain ⟨hc, e⟩ := whenEnabled_eq_next.mp h
    cases e
    simp only [resyncEnabled, Bool.and_eq_true, Bool.not_eq_true'] at hc
    exact .resync (by simp) hc.1 hc.2
  | dispatch =>
    obtain ⟨hc, e⟩ := whenEnabled_eq_next.mp h
    cases e
    exact dispatchFrame_effect hc
  | dispS =>
    obtain ⟨hc, e⟩ := whenEnabled_eq_next.mp h
    cases e
    simp only [Bool.and_eq_true, Bool.or_eq_true, Bool.not_eq_true'] at hc
    exact .framing _ (.inr (.inl ⟨rfl, rfl⟩)) hc.1 hc.2
  | dispK =>
    obtain ⟨hc, e⟩ := whenEnabled_eq_next.mp h
    cases e
    simp only [Bool.and_eq_true, Bool.not_eq_true'] at hc
    exact .checksum _ (.inr (.inl ⟨rfl, rfl⟩)) hc.1.1.1 hc.1.1.2 hc.1.2 hc.2
  | dispG =>
    obtain ⟨hc, e⟩ := whenEnabled_eq_next.mp h
    cases e
    simp only [Bool.and_eq_true] at hc
    exact .accept _ (.inr (.inl ⟨rfl, rfl⟩)) hc.1.1.1 hc.1.1.2 hc.1.2 hc.2
  | tick => obtain ⟨hc, e⟩ := whenEnabled_eq_next.mp h; cases e; exact .tick hc
  | tickExpire => obtain ⟨hc, e⟩ := whenEnabled_eq_next.mp h; cases e; exact .expire hc
  | recEnter => obtain ⟨hc, e⟩ := whenEnabled_eq_next.mp h; cases e; exact .enter hc
  | recIter => obtain ⟨hc, e⟩ := whenEnabled_eq_next.mp h; cases e; exact .iter hc
  | recExit => obtain ⟨hc, e⟩ := whenEnabled_eq_next.mp h; cases e; exact .exit hc
  | idle => obtain ⟨hc, e⟩ := whenEnabled_eq_next.mp h; cases e; exact .idle hc
  | period c => cases h; exact .period c
  | reset => cases h; exact .reset
  | map p => cases h; exact .map p
  | chk => cases h; exact .chk
  | setChannel c off =>
    simp only [exec, execSetChannel] at h
    split at h
    · cases h
      exact .setChannel c off ‹_›
    · cases h
      exact .setChannelFree c off ‹_›
  | neutralizeAll => cases h; exact .neutralizeAll
  | setDigitalOutputs b => cases h; exact .setDigitalOutputs b

end Sys2Proof.Machine
end

