-- ==== Sys2Proof/Laws/PerInstr.lean ====
section
/-! SUPPORT. Statements made per instruction, one lemma per constructor. Family `EncodeLength`: the encoder gives exactly as
many bytes as the row's format has. -/

namespace Sys2Proof.Laws.EncodeLength

/-- The encoding has the length of the row's format. -/
def Statement (i : Instr) : Prop := (encode i).length = i.format.length

theorem cmd (f : Frame) : Statement (.cmd f) := rfl
theorem cmdBadchk (f : Frame) : Statement (.cmdBadchk f) := rfl
theorem cmdBadmarker (f : Frame) : Statement (.cmdBadmarker f) := rfl
theorem escE : Statement (.escE) := rfl
theorem escN : Statement (.escN) := rfl
theorem escD : Statement (.escD) := rfl
theorem escFF : Statement (.escFF) := rfl
theorem noise (b : Byte) : Statement (.noise b) := rfl
theorem data (b : Byte) : Statement (.data b) := rfl
theorem overrun (b : Byte) : Statement (.overrun b) := rfl
theorem ackG : Statement (.ackG) := rfl
theorem nakK : Statement (.nakK) := rfl
theorem nakS : Statement (.nakS) := rfl
theorem echo (b : Byte) : Statement (.echo b) := rfl
theorem rx (b : Byte) : Statement (.rx b) := rfl
theorem rxAppend (b : Byte) : Statement (.rxAppend b) := rfl
theorem rxOvr (b : Byte) : Statement (.rxOvr b) := rfl
theorem rxScan (b : Byte) : Statement (.rxScan b) := rfl
theorem rxResync : Statement (.rxResync) := rfl
theorem dispatch : Statement (.dispatch) := rfl
theorem dispS : Statement (.dispS) := rfl
theorem dispK : Statement (.dispK) := rfl
theorem dispG : Statement (.dispG) := rfl
theorem tick : Statement (.tick) := rfl
theorem tickExpire : Statement (.tickExpire) := rfl
theorem recEnter : Statement (.recEnter) := rfl
theorem recIter : Statement (.recIter) := rfl
theorem recExit : Statement (.recExit) := rfl
theorem idle : Statement (.idle) := rfl
theorem period (c : Channel) : Statement (.period c) := rfl
theorem reset : Statement (.reset) := rfl
theorem map (p : Byte) : Statement (.map p) := rfl
theorem chk : Statement (.chk) := rfl
theorem setChannel (c : Channel) (off : Nat) : Statement (.setChannel c off) := rfl
theorem neutralizeAll : Statement (.neutralizeAll) := rfl
theorem setDigitalOutputs (b : Byte) : Statement (.setDigitalOutputs b) := rfl

end Sys2Proof.Laws.EncodeLength
end

