-- ==== Sys2Proof/Laws/Step.lean ====
section
/-! SUPPORT. What a step does with each kind of schedule entry, and what each event fetches. -/

namespace Sys2Proof.Machine

theorem step_of_nil {s : State} (h : s.sched = []) :
    step s = runEvent (Config.environment s.draw) { s with draw := s.draw + 1 } := by
  unfold step
  split
  · rfl
  · simp_all
  · simp_all

theorem step_of_event {s : State} {e : Event} {rest : List Item} (h : s.sched = .event e :: rest) :
    step s = runEvent e { s with sched := rest } := by
  unfold step
  split <;> simp_all

theorem step_of_op {s : State} {i : Instr} {rest : List Item} (h : s.sched = .op i :: rest) :
    step s = exec i { s with sched := rest } := by
  unfold step
  split <;> simp_all

/-- Running an event is executing the instruction it fetches. -/
theorem runEvent_of_fetch {e : Event} {s : State} {i : Instr} (h : fetch e s = .ok i) : runEvent e s = exec i s := by
  simp [runEvent, h]

theorem fetch_rx (b : Byte) (s : State) : fetch (.rx b) s = .ok (decodeByteIn (decodeCtx s) b) := rfl

theorem fetch_period (c : Channel) (s : State) : fetch (.period c) s = .ok (.period c) := rfl

theorem fetch_reset (s : State) : fetch .reset s = .ok .reset := rfl

theorem fetch_tick (s : State) : fetch .tick s = .ok (if tickEnabled s then .tick else .tickExpire) := rfl

/-- A main step that dispatches fetches what the frame in the buffer decodes to. -/
theorem fetch_dispatch {pick : MainChoice} {s : State} (h : mainStep pick s = .dispatch) :
    fetch (.main pick) s = .ok (decodeFrame s.sync (frameOf s)) := by
  simp only [fetch, h]
  rfl

/-- The main sequencer's other steps fetch the operation of their own name. -/
theorem fetch_main {pick : MainChoice} {s : State} (h : mainStep pick s ≠ .dispatch) :
    fetch (.main pick) s = .ok (match mainStep pick s with
      | .enter => .recEnter
      | .iter => .recIter
      | .exit => .recExit
      | .idle => .idle
      | .dispatch => .dispatch) := by
  simp only [fetch]
  cases hm : mainStep pick s <;> simp_all

end Sys2Proof.Machine
end

