-- ==== Sys2Proof/Laws/Run.lean ====
section
/-! SUPPORT. Runs of several steps, cut at their first step. -/

namespace Sys2Proof.Machine

theorem coreRun_succ (M : Host.Core) {s t : M.State} (k : Nat) (h : M.step s = .next t) :
    M.run (k + 1) s = M.run k t := by
  simp only [Host.Core.run, h]

theorem coreRun_stopped (M : Host.Core) {s u : M.State} (k : Nat) (h : ∀ t, M.step s ≠ .next t) :
    M.run (k + 1) s ≠ .next u := by
  intro e
  simp only [Host.Core.run] at e
  split at e
  · next t ht => exact h t ht
  · cases e
  · cases e

theorem coreRun_add (M : Host.Core) {s t : M.State} (k l : Nat) (h : M.run k s = .next t) :
    M.run (k + l) s = M.run l t := by
  induction k generalizing s with
  | zero =>
    cases h
    rw [Nat.zero_add]
  | succ k ih =>
    rw [Nat.add_right_comm]
    by_cases hs : ∃ u, M.step s = .next u
    · obtain ⟨u, hs⟩ := hs
      rw [coreRun_succ M k hs] at h
      rw [coreRun_succ M (k + l) hs]
      exact ih h
    · exact absurd h (coreRun_stopped M k fun u hu => hs ⟨u, hu⟩)

theorem run_zero (s : State) : Host.Core.run Sys2Proof.core 0 s = .next s := rfl

/-- A run is its first step and the run from there. -/
theorem run_succ {s t : State} (k : Nat) (h : step s = .next t) :
    Host.Core.run Sys2Proof.core (k + 1) s = Host.Core.run Sys2Proof.core k t :=
  coreRun_succ Sys2Proof.core k h

/-- A run of `k + l` steps is a run of `k` and then one of `l`. -/
theorem run_add {s t : State} (k l : Nat) (h : Host.Core.run Sys2Proof.core k s = .next t) :
    Host.Core.run Sys2Proof.core (k + l) s = Host.Core.run Sys2Proof.core l t :=
  coreRun_add Sys2Proof.core k l h

end Sys2Proof.Machine
end

