-- ==== Sys2Proof/Tests/Slice0.lean ====
section
/-! SUPPORT. The model's own tests, and for every statement with hypotheses a concrete state and operands that meet them.
Expected values are spec/95_test_vectors.md's (the vector is named) or computed by hand from the rule named. -/

namespace Sys2Proof.Tests

open Sys2Proof Sys2Proof.Machine

-- Small states. `MIN_PULSE` 1500, `T_TIMEOUT` 5.

def cfg0 : Config := ⟨1500, 5, 16, .either, by decide, by decide, by decide⟩

/-- The same with `MAIN_PRIORITY` = `fail_first`. -/
def cfgFail : Config := ⟨1500, 5, 16, .failFirst, by decide, by decide, by decide⟩

def base : State := State.resetOf cfg0

/-- The start state of V-DISP before the frame: `pw = [MP-80 x6]`, output A set. -/
def start : State := { base with pw := Channels.fill 1420, doutA := true }

/-- A state in which the frame waits. -/
def full (f : Frame) (s : State) : State := { s with buf := cellsFrom 0 f.bytes, idx := 14, ready := true }

/-- The start state of V-RX-ESC (with a `tcnt` below this `T_TIMEOUT`). -/
def lost : State := { base with sync := false, idx := 5, fail := true, tcnt := 4 }

/-- The same with all of E, N, D seen. -/
def lostEnd : State := { lost with escE := true, escN := true, escD := true }

/-- Recovery phase, Searching without progress. -/
def recov : State := { base with mphase := .recovery, fail := true, sync := false }

/-- The fail-safe flag is set, the main sequencer has not acted yet. -/
def tripped : State := { start with fail := true }

/-- Searching, as after a framing error. -/
def searching : State := { start with sync := false }

/-- The frame of S8. -/
def f1 : Frame := ⟨0x43, 0x0A, 0x14, 0x1E, 0x28, 0x32, 0x3C, 0x40, 0, 0x66, 0, 0, 0, 0⟩

/-- V-DISP row 4: clip boundary, non-zero padding. -/
def f4 : Frame := ⟨0x43, 0x9C, 0x9D, 0x9B, 0x00, 0x01, 0xFF, 0xC0, 0x00, 0xA4, 0xDE, 0xAD, 0xBE, 0xEF⟩

/-- V-DISP row 6: the checksum leaves byte 8 out, which is wrong. -/
def f6 : Frame := ⟨0x43, 1, 2, 3, 4, 5, 6, 0x80, 0x11, 0x87, 0, 0, 0, 0⟩

/-- V-DISP row 9: bad marker and bad checksum. -/
def f9 : Frame := ⟨0x63, 1, 2, 3, 4, 5, 6, 0x80, 0, 0x86, 0, 0, 0, 0⟩

/-- The state an outcome holds. -/
def after (o : Out) : Option State :=
  match o with
  | .next t => some t
  | .fault _ => none
  | .refused _ => none

/-- The refusal an outcome holds. -/
def stopped (o : Out) : Option Refusal :=
  match o with
  | .next _ => none
  | .fault _ => none
  | .refused r => some r

-- Well-formedness: an ill-formed term for each check, refused.

theorem test_wf_cmd_marker : Instr.wf (.cmd { f1 with marker := 0x63 }) = false := by decide
theorem test_wf_cmd_checksum : Instr.wf (.cmd { f1 with chk := 0x67 }) = false := by decide
theorem test_wf_badchk_marker : Instr.wf (.cmdBadchk { f6 with marker := 0x63 }) = false := by decide
theorem test_wf_badchk_checksum : Instr.wf (.cmdBadchk f1) = false := by decide
theorem test_wf_noise_e : Instr.wf (.noise 0x45) = false := by decide
theorem test_wf_setchannel_offset : Instr.wf (.setChannel .ch1 1249) = false := by decide
theorem test_wf_accepts : Instr.wf (.cmd f1) && Instr.wf (.cmdBadchk f6) && Instr.wf (.setChannel .ch6 1248) = true := by
  decide

-- Decoding: words written out from spec/30_encoding.md R60 to R62, for every row that has an encoding.

theorem test_decode_cmd : decode ⟨true, true, false, false, false⟩ .frame14
    [0x43, 0x9C, 0x9D, 0x9B, 0x00, 0x01, 0xFF, 0xC0, 0x00, 0xA4, 0xDE, 0xAD, 0xBE, 0xEF] = .ok (.cmd f4, []) := rfl
theorem test_decode_cmd_badchk : decode ⟨true, true, false, false, false⟩ .frame14
    [0x43, 1, 2, 3, 4, 5, 6, 0x80, 0x11, 0x87, 0, 0, 0, 0, 0x43] = .ok (.cmdBadchk f6, [0x43]) := rfl
theorem test_decode_cmd_badmarker : decode ⟨true, true, false, false, false⟩ .frame14
    [0x63, 1, 2, 3, 4, 5, 6, 0x80, 0, 0x86, 0, 0, 0, 0] = .ok (.cmdBadmarker f9, []) := rfl
theorem test_decode_unsynchronized : decode ⟨false, true, false, false, false⟩ .frame14
    [0x43, 0x0A, 0x14, 0x1E, 0x28, 0x32, 0x3C, 0x40, 0, 0x66, 0, 0, 0, 0] = .ok (.cmdBadmarker f1, []) := rfl
theorem test_decode_esc_e : decode ⟨false, false, false, false, false⟩ .byteIn [0b01000101] = .ok (.escE, []) := rfl
theorem test_decode_esc_n : decode ⟨false, false, true, false, false⟩ .byteIn [0b01001110] = .ok (.escN, []) := rfl
theorem test_decode_esc_d : decode ⟨false, false, true, true, false⟩ .byteIn [0b01000100] = .ok (.escD, []) := rfl
theorem test_decode_esc_ff : decode ⟨false, true, true, true, true⟩ .byteIn [0b11111111] = .ok (.escFF, []) := rfl
theorem test_decode_noise : decode ⟨false, false, false, false, false⟩ .byteIn [0x4E] = .ok (.noise 0x4E, []) := rfl
theorem test_decode_data : decode ⟨true, false, false, false, false⟩ .byteIn [0xFF] = .ok (.data 0xFF, []) := rfl
theorem test_decode_overrun : decode ⟨true, true, false, false, false⟩ .byteIn [0x0A] = .ok (.overrun 0x0A, []) := rfl
theorem test_decode_ack_g : decode ⟨true, false, false, false, false⟩ .byteOut [0b01000111] = .ok (.ackG, []) := rfl
theorem test_decode_nak_k : decode ⟨true, false, false, false, false⟩ .byteOut [0b01101011] = .ok (.nakK, []) := rfl
theorem test_decode_nak_s : decode ⟨true, false, false, false, false⟩ .byteOut [0b01110011] = .ok (.nakS, []) := rfl
theorem test_decode_echo : decode ⟨true, false, false, false, false⟩ .byteOut [0x0A] = .ok (.echo 0x0A, []) := rfl

/-- The pattern of the table's row `CMD`, as R75 writes it: its first byte is the leftmost (all positions 0: V-DISP row 1). -/
theorem test_table_word_pattern :
    decodeTableWord 112 0x4300000000000000000000000000 = some (.cmd ⟨0x43, 0, 0, 0, 0, 0, 0, 0, 0, 0, 0, 0, 0, 0⟩) := by decide
/-- The frame of S8 as a table word (R75). -/
theorem test_table_word_frame : decodeTableWord 112 0x43_0A_14_1E_28_32_3C_40_00_66_00_00_00_00 = some (.cmd f1) := by decide
theorem test_table_word_bytes :
    decodeTableWord 8 0x45 = some .escE ∧ decodeTableWord 8 0xFF = some .escFF ∧ decodeTableWord 8 0x73 = some .nakS := by
  decide
theorem test_command_frame : commandFrame 10 20 30 40 50 60 0x40 0 = f1 := by decide

-- One step each (vectors of spec/95_test_vectors.md).

/-- V-DISP row 4. -/
theorem test_cmd_clips :
    (after (exec (.cmd f4) (full f4 start))).map (fun t => (t.pw, t.doutA, t.doutB, t.tx, t.idx)) =
      some (⟨252, 252, 260, 1500, 1492, 252⟩, true, true, [0x47], 0) := by decide
/-- V-DISP row 6: nothing applied. -/
theorem test_cmd_badchk :
    (after (exec (.cmdBadchk f6) (full f6 start))).map (fun t => (t.pw, t.doutA, t.tx, t.sync)) =
      some (Channels.fill 1420, true, [0x6B], true) := by decide
/-- V-DISP row 9: `'s'`, never `'k'`. -/
theorem test_cmd_badmarker :
    (after (exec (.cmdBadmarker f9) (full f9 start))).map (fun t => (t.pw, t.tx, t.sync, t.ready)) =
      some (Channels.fill 1420, [0x73], false, false) := by decide
/-- S8: 'G', channel 1 at MP-80, output A set; B cleared (P1). -/
theorem test_dispatch_s8 :
    (after (exec .dispatch (full f1 base))).map (fun t => (t.pw, t.doutA, t.doutB, t.tx)) =
      some (⟨1420, 1340, 1260, 1180, 1100, 1020⟩, true, false, [0x47]) := by decide
/-- V-DISP row 11: a good frame while not synchronized. -/
theorem test_disp_s_unsynchronized :
    (after (exec .dispS (full f1 { start with sync := false }))).map (fun t => (t.tx, t.sync, t.pw)) =
      some ([0x73], false, Channels.fill 1420) := by decide
/-- V-DISP row 7: one wrong bit. -/
theorem test_disp_k :
    (after (exec .dispK (full { f6 with rsv := 0, chk := 0x07 } start))).map (fun t => (t.tx, t.sync)) =
      some ([0x6B], true) := by decide
/-- V-DISP row 5: A cleared, B set. -/
theorem test_disp_g :
    (after (exec .dispG (full { f6 with chk := 0x96 } start))).map (fun t => (t.pw, t.doutA, t.doutB)) =
      some (⟨1492, 1484, 1476, 1468, 1460, 1452⟩, false, true) := by decide
/-- V-RX-ESC: E, then N, then D latch in this order; FF resynchronizes. -/
theorem test_esc_e : (after (exec .escE lost)).map (fun t => (t.escE, t.escN, t.escD, t.tcnt, t.tx)) =
    some (true, false, false, 0, [0x45]) := by decide
theorem test_esc_n : (after (exec .escN { lost with escE := true })).map (fun t => (t.escE, t.escN, t.escD)) =
    some (true, true, false) := by decide
/-- V-RX-ESC `44 4E 45 FF`: N without E does not count. -/
theorem test_esc_n_early : (after (exec .escN lost)).map (fun t => (t.escN, t.tx)) = some (false, [0x4E]) := by decide
theorem test_esc_d : (after (exec .escD { lost with escE := true, escN := true })).map (fun t => (t.escD, t.idx)) =
    some (true, 5) := by decide
/-- S6, last byte. -/
theorem test_esc_ff : (after (exec .escFF lostEnd)).map (fun t => (t.sync, t.idx, t.fail, t.tcnt, t.escD)) =
    some (true, 0, false, 0, false) := by decide
theorem test_esc_ff_early : (after (exec .escFF lost)).map (fun t => (t.sync, t.idx, t.fail)) = some (false, 5, true) := by
  decide
/-- V-RX-ESC `65`: lower case does not match. -/
theorem test_noise : (after (exec (.noise 0x65) lost)).map (fun t => (t.escE, t.tcnt, t.tx)) =
    some (false, 0, [0x65]) := by decide
/-- V-RX-SYNC row 6. -/
theorem test_data_last : (after (exec (.data 0x7E) { base with idx := 13 })).map (fun t => (t.idx, t.ready, t.buf)) =
    some (14, true, [(13, 0x7E)]) := by decide
/-- V-RX-SYNC row 8. -/
theorem test_overrun : (after (exec (.overrun 0x43) { full f1 base with tcnt := 2 })).map
    (fun t => (t.ovr, t.tcnt, t.idx, t.tx, t.buf == cellsFrom 0 f1.bytes)) = some (true, 0, 14, [0x43], true) := by decide
theorem test_rx_overrun : (after (exec (.rx 0x0A) { full f1 base with ovr := true })).map (fun t => (t.ovr, t.idx)) =
    some (true, 14) := by decide
/-- V-RX-SYNC row 3: escape bytes are data while synchronized. -/
theorem test_rx_synchronized : (after (exec (.rx 0x45) { base with idx := 5 })).map (fun t => (t.idx, t.buf, t.escE)) =
    some (6, [(5, 0x45)], false) := by decide
/-- V-RX-SYNC row 1. -/
theorem test_rx_append : (after (exec (.rxAppend 0x43) { base with tcnt := 3 })).map (fun t => (t.idx, t.buf, t.tcnt, t.tx)) =
    some (1, [(0, 0x43)], 0, [0x43]) := by decide
theorem test_rx_ovr : (after (exec (.rxOvr 0x43) (full f1 base))).map (fun t => (t.ovr, t.ready)) = some (true, true) := by
  decide
/-- V-RX-ESC `45 4E 45 44 FF`: a later E does not restart the chain. -/
theorem test_rx_scan : (after (exec (.rxScan 0x45) { lost with escE := true, escN := true })).map
    (fun t => (t.escE, t.escN, t.escD)) = some (true, true, false) := by decide
/-- R84: `ready` and `mphase` survive a resynchronization. -/
theorem test_rx_resync :
    (after (exec .rxResync { lostEnd with ready := true, mphase := .recovery })).map
      (fun t => (t.sync, t.fail, t.ready, t.mphase, t.tx)) = some (true, false, true, .recovery, [0xFF]) := by decide
theorem test_ack_g : (after (exec .ackG { base with tx := [1] })).map (·.tx) = some [1, 0x47] := by decide
theorem test_nak_k : (after (exec .nakK { base with tx := [1] })).map (·.tx) = some [1, 0x6B] := by decide
theorem test_nak_s : (after (exec .nakS { base with tx := [1] })).map (·.tx) = some [1, 0x73] := by decide
theorem test_echo : (after (exec (.echo 0x99) { base with tx := [1] })).map (·.tx) = some [1, 0x99] := by decide
/-- V-TMR. -/
theorem test_tick : (after (exec .tick { base with tcnt := 3 })).map (fun t => (t.tcnt, t.fail)) = some (4, false) := by decide
theorem test_tick_expire : (after (exec .tickExpire { base with tcnt := 4 })).map (fun t => (t.tcnt, t.fail)) =
    some (0, true) := by decide
/-- V-REC. -/
theorem test_rec_enter : (after (exec .recEnter tripped)).map (fun t => (t.mphase, t.pw, t.pwa, t.doutA, t.sync)) =
    some (.recovery, Channels.fill 1500, Channels.fill 1500, true, true) := by decide
theorem test_rec_iter : (after (exec .recIter { recov with escE := true, escN := true, idx := 3, ready := true })).map
    (fun t => (t.sync, t.escE, t.escN, t.idx, t.ready)) = some (false, false, false, 3, true) := by decide
theorem test_rec_exit : (after (exec .recExit { recov with fail := false, sync := true })).map (fun t => (t.mphase, t.sync)) =
    some (.run, true) := by decide
theorem test_idle : after (exec .idle start) = some start := by decide
/-- V-PWM row 2. -/
theorem test_period : (after (exec (.period .ch2) { base with pw := ⟨1420, 1340, 1260, 1180, 1100, 1020⟩ })).map (·.pwa) =
    some ⟨1500, 1340, 1500, 1500, 1500, 1500⟩ := by decide
/-- V-RESET. -/
theorem test_reset : (after (exec .reset { full f1 lostEnd with tx := [1], ovr := true })).map
    (fun t => (t.sync, t.fail, t.ovr, t.tx)) = some (true, false, false, []) := by decide
/-- V-MAP. -/
theorem test_map : [0x00, 0x01, 0x80, 0x9B, 0x9C, 0x9D, 0xFF].map mapOffset = [0, 8, 1024, 1240, 1248, 1248, 1248] := by decide
theorem test_map_ret : (after (exec (.map 0x0A) base)).map (·.ret) = some 80 := by decide
/-- V-CHK: S8 and the row with byte 8. -/
theorem test_chk : (after (exec .chk (full f1 base))).map (·.ret) = some 0x66 := by decide
theorem test_chk_reserved : (after (exec .chk (full f6 base))).map (·.ret) = some 0x96 := by decide
theorem test_set_channel : (after (exec (.setChannel .ch3 1248) base)).map (·.pw) =
    some ⟨1500, 1500, 252, 1500, 1500, 1500⟩ := by decide
/-- S5. -/
theorem test_neutralize_all : (after (exec .neutralizeAll start)).map (·.pw) = some (Channels.fill 1500) := by decide
/-- V-DOUT. -/
theorem test_set_digital_outputs :
    ([0x00, 0x3F, 0x40, 0x7F, 0x80, 0xBF, 0xC0, 0xFF, 0x01] : List Byte).map (fun b => (switchA b, switchB b)) =
      [(false, false), (false, false), (true, false), (true, false), (false, true), (false, true), (true, true),
        (true, true), (false, false)] := by decide
/-- V-REC row 9: `MAIN_PRIORITY`. -/
theorem test_main_priority :
    mainStep .dispatchFirst { full f1 tripped with cfg := cfgFail } = .enter ∧
    mainStep .dispatchFirst (full f1 tripped) = .dispatch ∧ mainStep .enterFirst (full f1 tripped) = .enter := by decide

-- Witnesses: for every statement with hypotheses, a state and operands that meet them together.

theorem pulse_of_check {cfg : Config} {v : Nat}
    (h : v ≤ cfg.minPulse ∧ cfg.minPulse - v ≤ 1248 ∧ (cfg.minPulse - v) % 8 = 0) : InPulseRange cfg v :=
  ⟨(cfg.minPulse - v) / 8, by show _ ≤ 156; omega, by show _ + _ * 8 = _; omega⟩

theorem witness_inv_base : Inv base where
  buf_wf := by decide
  filled := by decide
  ready_filled := by decide
  full_ready := by decide
  esc_d_n := by decide
  esc_n_e := by decide
  sync_clear := by decide
  tcnt_lt := by decide
  run_searching := by decide
  recovered_sync := by decide
  recovery_neutral := by decide
  pw_range := fun c => by cases c <;> exact pulse_of_check (by decide)
  pwa_range := fun c => by cases c <;> exact pulse_of_check (by decide)
  sched_fired := by decide

/-- A frame waits (`PowerOnBytesAreNeverDispatched`). -/
theorem witness_inv_full : Inv (full f1 start) where
  buf_wf := by decide
  filled := by decide
  ready_filled := by intro _; decide
  full_ready := by decide
  esc_d_n := by decide
  esc_n_e := by decide
  sync_clear := by decide
  tcnt_lt := by decide
  run_searching := by decide
  recovered_sync := by decide
  recovery_neutral := by decide
  pw_range := fun c => by cases c <;> exact pulse_of_check (by decide)
  pwa_range := fun c => by cases c <;> exact pulse_of_check (by decide)
  sched_fired := by decide

/-- Searching with the whole prefix E, N, D seen, in the recovery phase. -/
def recovEnd : State := { recov with escE := true, escN := true, escD := true }

theorem witness_inv_recovEnd : Inv recovEnd where
  buf_wf := by decide
  filled := by decide
  ready_filled := by decide
  full_ready := by decide
  esc_d_n := by decide
  esc_n_e := by decide
  sync_clear := by decide
  tcnt_lt := by decide
  run_searching := by decide
  recovered_sync := by decide
  recovery_neutral := by decide
  pw_range := fun c => by cases c <;> exact pulse_of_check (by decide)
  pwa_range := fun c => by cases c <;> exact pulse_of_check (by decide)
  sched_fired := by decide

/-- The events of `witness_FailSafe`: bytes that spell no escape sequence, ticks, main steps and a period boundary. -/
def stray : List Event := [.rx 0x45, .rx 0x4E, .main .enterFirst, .tick, .rx 0xFF, .rx 0x44, .period .ch1]

theorem witness_inv_recov : Inv { recov with sched := stray.map Item.event } where
  buf_wf := by decide
  filled := by decide
  ready_filled := by decide
  full_ready := by decide
  esc_d_n := by decide
  esc_n_e := by decide
  sync_clear := by decide
  tcnt_lt := by decide
  run_searching := by decide
  recovered_sync := by decide
  recovery_neutral := by decide
  pw_range := fun c => by cases c <;> exact pulse_of_check (by decide)
  pwa_range := fun c => by cases c <;> exact pulse_of_check (by decide)
  sched_fired := by decide

theorem witness_DecodeOfEncode :
    (∀ p ∈ ([(⟨true, true, false, false, false⟩, .cmd f4), (⟨true, true, false, false, false⟩, .cmdBadchk f6),
        (⟨true, true, false, false, false⟩, .cmdBadmarker f9), (⟨false, true, false, false, false⟩, .cmdBadmarker f1),
        (⟨false, false, false, false, false⟩, .escE), (⟨false, false, true, false, false⟩, .escN),
        (⟨false, false, true, true, false⟩, .escD), (⟨false, false, true, true, true⟩, .escFF)] :
        List (DecodeCtx × Instr)), p.2.wf = true ∧ p.2.selectedIn p.1 = true) ∧
    (∀ p ∈ ([(⟨false, false, false, false, false⟩, .noise 0x4E), (⟨true, false, false, false, false⟩, .data 0x45),
        (⟨true, true, false, false, false⟩, .overrun 0xFF), (⟨true, false, false, false, false⟩, .ackG),
        (⟨true, false, false, false, false⟩, .nakK), (⟨true, false, false, false, false⟩, .nakS),
        (⟨true, false, false, false, false⟩, .echo 0x46)] :
        List (DecodeCtx × Instr)), p.2.wf = true ∧ p.2.selectedIn p.1 = true) := by decide
theorem witness_DecodedInstructionReencodes :
    decode ⟨true, true, false, false, false⟩ .frame14 (f4.bytes ++ [0x43]) = .ok (.cmd f4, [0x43]) ∧
    decode ⟨false, false, true, false, false⟩ .byteIn [0x4E, 0x44] = .ok (.escN, [0x44]) := ⟨rfl, rfl⟩
theorem witness_DecoderRejectsOnlyShortInput : (f1.bytes.drop 1).length < 14 ∧ 14 ≤ f1.bytes.length := by decide
theorem witness_StepRuns_byte : ({ lost with sched := [.event (.rx 0x45)] } : State).sched = .event (.rx 0x45) :: [] ∧
    decode (decodeCtx { lost with sched := [.event (.rx 0x45)] }) .byteIn [0x45] = .ok (.escE, []) := ⟨rfl, rfl⟩
theorem witness_StepRuns_frame :
    mainStep .enterFirst { full f1 base with sched := [.event (.main .enterFirst)] } = .dispatch ∧
    decode (decodeCtx { full f1 base with sched := [.event (.main .enterFirst)] }) .frame14
      (bufBytes { full f1 base with sched := [.event (.main .enterFirst)] }) = .ok (.cmd f1, []) := ⟨by decide, rfl⟩
theorem witness_StepRuns_main : mainStep .enterFirst tripped = .enter ∧ mainStep .enterFirst recov = .iter ∧
    mainStep .enterFirst { recov with fail := false, sync := true } = .exit ∧ mainStep .enterFirst base = .idle := by decide
theorem witness_StepRuns_event :
    ({ base with tcnt := 3, sched := [.event .tick] } : State).tcnt + 1 < base.cfg.tTimeout ∧
    ¬ ({ base with tcnt := 4, sched := [.event .tick] } : State).tcnt + 1 < base.cfg.tTimeout ∧
    ({ base with sched := [.event (.period .ch6)] } : State).sched = .event (.period .ch6) :: [] ∧
    ({ base with sched := [.event .reset] } : State).sched = .event .reset :: [] ∧
    ({ base with sched := [.op .chk] } : State).sched = .op .chk :: [] := by decide
theorem witness_StepRuns_environment : base.sched = [] := rfl
theorem witness_PlacedTableWord :
    decodeTableWord 112 0x43_0A_14_1E_28_32_3C_40_00_66_00_00_00_00 = some (.cmd f1) ∧ decodeTableWord 8 0xFF = some .escFF ∧
      decodeTableWord 8 0x47 = some .ackG := by decide
/-- The placed frame is applied by the very next step from reset. -/
theorem test_fetch_word :
    (after (step (base.withFetchWord 112 0x43_0A_14_1E_28_32_3C_40_00_66_00_00_00_00))).map (fun t => (t.pw.c1, t.tx)) =
      some (1420, [0x47]) := by decide
theorem witness_EveryEventCompletes : Inv base ∧ base.sched = [] ∧ Inv { recov with sched := stray.map Item.event } ∧
    ∃ e rest, ({ recov with sched := stray.map Item.event } : State).sched = .event e :: rest :=
  ⟨witness_inv_base, rfl, witness_inv_recov, _, _, rfl⟩
theorem witness_StepKeepsTheInvariant : Inv { recov with sched := stray.map Item.event } ∧
    ∃ t, step { recov with sched := stray.map Item.event } = .next t := ⟨witness_inv_recov, _, rfl⟩
theorem witness_ConfigurationIsNeverWritten : ∃ t, step { base with sched := [.event .reset] } = .next t := ⟨_, rfl⟩
theorem witness_Reception :
    (base.sync = true ∧ base.idx.val ≤ 13) ∧ (({ base with idx := 13 } : State).idx.val ≤ 13) ∧
    ((full f1 base).sync = true ∧ (full f1 base).idx = 14) ∧
    (lostEnd.sync = false ∧ ¬(lostEnd.escD = true ∧ (0xFE#8 : Byte) = 0xFF#8)) ∧
    (lostEnd.sync = false ∧ lostEnd.escD = true ∧ (0xFF#8 : Byte) = 0xFF#8) := by decide
theorem witness_ByteMeaning : ({ base with idx := 13 } : State).idx.val ≤ 13 ∧ base.sync = true ∧
    (full f1 base).idx = 14 ∧ lostEnd.sync = false := by decide
theorem witness_DecodedByteIsTheReception : decode (decodeCtx (full f1 base)) .byteIn [0x43, 1] = .ok (.overrun 0x43, [1]) ∧
    decode (decodeCtx lostEnd) .byteIn [0xFF] = .ok (.escFF, []) := ⟨rfl, rfl⟩
theorem witness_Append : ({ base with idx := 13 } : State).sync = true ∧ ({ base with idx := 13 } : State).idx.val ≤ 13 := by
  decide
theorem witness_Overrun : (full f1 base).sync = true ∧ (full f1 base).idx = 14 := by decide
theorem witness_Scan : lost.sync = false ∧ ¬(lost.escD = true ∧ (0xFF#8 : Byte) = 0xFF#8) := by decide
theorem witness_EscapeBytes : lost.sync = false ∧ lost.escD = false ∧ lostEnd.sync = false ∧ lostEnd.escD = true := by decide
theorem witness_Noise : lost.sync = false ∧ (0xFF#8 : Byte) ≠ 0x45#8 ∧ ¬((0xFF#8 : Byte) = 0x4E#8 ∧ lost.escE = true) ∧
    ¬((0xFF#8 : Byte) = 0x44#8 ∧ lost.escN = true) ∧ ¬((0xFF#8 : Byte) = 0xFF#8 ∧ lost.escD = true) := by decide
theorem witness_Resynchronization : lostEnd.sync = false ∧ lostEnd.escD = true := by decide
theorem witness_RecognizerIsACounter : Inv recovEnd ∧ recovEnd.sync = false ∧ escProgress recovEnd = 3 ∧
    (∃ t, exec (.rx 0xFF#8) recovEnd = .next t) ∧ ∃ t, exec (.rx 0xFE#8) recovEnd = .next t :=
  ⟨witness_inv_recovEnd, rfl, rfl, ⟨_, rfl⟩, _, rfl⟩
/-- Searching, with bytes on their way. -/
def hearing (bs : List Byte) : State := { lost with sched := bs.map (fun b => Item.event (.rx b)) }
/-- V-RX-ESC: `45 44 4E FF` contains no escape sequence, S6's bytes end in the first one. -/
theorem witness_EscapeIsRecognized :
    (∀ bs ∈ ([[0x45, 0x44, 0x4E, 0xFF], [0x01, 0x45, 0x02, 0x4E, 0x03, 0x44, 0x04, 0xFF]] : List (List Byte)),
      (hearing bs).sync = false ∧ (hearing bs).escE = false ∧ (hearing bs).escN = false ∧ (hearing bs).escD = false ∧
      (hearing bs).sched = bs.map (fun b => Item.event (.rx b)) ++ []) ∧
    ¬ escSequence.Sublist [0x45, 0x44, 0x4E, 0xFF] ∧
    [0x45#8, 0x4E#8, 0x44#8].Sublist [0x01#8, 0x45#8, 0x02#8, 0x4E#8, 0x03#8, 0x44#8, 0x04#8] ∧
    ¬ escSequence.Sublist [0x01, 0x45, 0x02, 0x4E, 0x03, 0x44, 0x04] := by decide
theorem witness_DispatchTests :
    dispatchEnabled (full f9 base) = true ∧ bufAt (full f9 base) 0 ≠ 0x43#8 ∧
    dispatchEnabled (full f1 searching) = true ∧ (full f1 searching).sync = false ∧
    (dispatchEnabled (full f6 base) = true ∧ bufAt (full f6 base) 0 = 0x43#8 ∧ (full f6 base).sync = true ∧
      (frameOf (full f6 base)).checksum ≠ bufAt (full f6 base) 9) ∧
    (dispatchEnabled (full f1 base) = true ∧ bufAt (full f1 base) 0 = 0x43#8 ∧ (full f1 base).sync = true ∧
      (frameOf (full f1 base)).checksum = bufAt (full f1 base) 9) := by decide
theorem witness_DispatchRunsTheDecodedFrame : dispatchEnabled (full f6 tripped) = true ∧
    decode (decodeCtx (full f6 tripped)) .frame14 (bufBytes (full f6 tripped)) = .ok (.cmdBadchk f6, []) := ⟨by decide, rfl⟩
theorem witness_DispatchAcknowledgesOnce : dispatchEnabled (full f4 base) = true := by decide
theorem witness_FramingError :
    (dispatchEnabled (full f9 base) = true ∧ (bufAt (full f9 base) 0 ≠ 0x43#8 ∨ (full f9 base).sync = false)) ∧
    (dispatchEnabled (full f1 searching) = true ∧ (f1.marker ≠ 0x43#8 ∨ (full f1 searching).sync = false)) := by decide
theorem witness_ChecksumError :
    dispatchEnabled (full f6 base) = true ∧ bufAt (full f6 base) 0 = 0x43#8 ∧ (full f6 base).sync = true ∧
    bufAt (full f6 base) 1 ^^^ bufAt (full f6 base) 2 ^^^ bufAt (full f6 base) 3 ^^^ bufAt (full f6 base) 4 ^^^
      bufAt (full f6 base) 5 ^^^ bufAt (full f6 base) 6 ^^^ bufAt (full f6 base) 7 ^^^ bufAt (full f6 base) 8 ≠
      bufAt (full f6 base) 9 ∧ f6.marker = 0x43#8 ∧
    f6.pos1 ^^^ f6.pos2 ^^^ f6.pos3 ^^^ f6.pos4 ^^^ f6.pos5 ^^^ f6.pos6 ^^^ f6.sw ^^^ f6.rsv ≠ f6.chk := by decide
theorem witness_AcceptedFrame :
    dispatchEnabled (full f4 base) = true ∧ bufAt (full f4 base) 0 = 0x43#8 ∧ (full f4 base).sync = true ∧
    bufAt (full f4 base) 1 ^^^ bufAt (full f4 base) 2 ^^^ bufAt (full f4 base) 3 ^^^ bufAt (full f4 base) 4 ^^^
      bufAt (full f4 base) 5 ^^^ bufAt (full f4 base) 6 ^^^ bufAt (full f4 base) 7 ^^^ bufAt (full f4 base) 8 =
      bufAt (full f4 base) 9 ∧ f4.marker = 0x43#8 ∧
    f4.pos1 ^^^ f4.pos2 ^^^ f4.pos3 ^^^ f4.pos4 ^^^ f4.pos5 ^^^ f4.pos6 ^^^ f4.sw ^^^ f4.rsv = f4.chk := by decide
theorem witness_PaddingIsNeverRead :
    (∀ a, a < 10 → Memory.read (cellsFrom 0 { f4 with pad0 := 0, pad3 := 1 }.bytes) a = (full f4 base).buf.read a) ∧
    ∃ t, exec .dispG (full f4 base) = .next t := ⟨by decide, _, rfl⟩
theorem witness_PowerOnBytes : Inv (full f1 start) ∧ ∃ t, exec .dispatch (full f1 start) = .next t :=
  ⟨witness_inv_full, _, rfl⟩
theorem witness_Checksum : f1.chkOk = true ∧ f4.chkOk = true ∧ f6.chkOk = false := by decide
theorem witness_Mapper : (0x9C#8 : Byte).toNat ≤ (0x9D#8 : Byte).toNat ∧ 156 ≤ (0x9C#8 : Byte).toNat ∧
    (0x9C#8 : Byte).toNat ≤ 156 := by decide
theorem witness_SetChannel : 1248 ≤ 1248 ∧ Channel.ch2 ≠ Channel.ch1 ∧ 1248 < 1249 := by decide
theorem witness_Period : Channel.ch6 ≠ Channel.ch1 := by decide
theorem witness_CompareValues : Inv { recov with sched := stray.map Item.event } ∧
    ∃ t, step { recov with sched := stray.map Item.event } = .next t := ⟨witness_inv_recov, _, rfl⟩
theorem witness_Tick : ({ base with tcnt := 3 } : State).tcnt + 1 < ({ base with tcnt := 3 } : State).cfg.tTimeout := by decide
theorem witness_Expiry : ({ base with tcnt := 4 } : State).tcnt + 1 = ({ base with tcnt := 4 } : State).cfg.tTimeout := by
  decide
theorem witness_RecoveryEntry :
    (tripped.mphase = .run ∧ tripped.fail = true ∧ tripped.ready = false) ∧
    ((full f1 tripped).mphase = .run ∧ (full f1 tripped).fail = true ∧ (full f1 tripped).cfg.priority ≠ .readyFirst) := by
  decide
theorem witness_RecoveryIteration : recovEnd.mphase = .recovery ∧ recovEnd.fail = true := by decide
theorem witness_RecoveryExit : ({ recov with fail := false, sync := true } : State).mphase = .recovery ∧
    ({ recov with fail := false, sync := true } : State).fail = false := by decide
theorem witness_Idle : start.mphase = .run ∧ start.fail = false ∧ start.ready = false := by decide
theorem witness_MainSequencer :
    (∃ t, exec .recEnter (full f1 tripped) = .next t) ∧ (∃ t, exec .dispatch (full f1 tripped) = .next t) ∧
    mainStep .enterFirst base = .idle ∧ mainStep .enterFirst recov = .iter ∧
    mainStep .enterFirst { recov with fail := false, sync := true } = .exit :=
  ⟨⟨_, rfl⟩, ⟨_, rfl⟩, rfl, rfl, rfl⟩
/-- The events of `witness_Silence`: five ticks, a period boundary and a main step among them. -/
def silence : List Event := [.tick, .tick, .period .ch4, .tick, .main .enterFirst, .tick, .tick]
theorem witness_Silence :
    start.tcnt < start.cfg.tTimeout ∧ start.ready = false ∧ start.cfg.tTimeout ≤ silence.count .tick ∧
    (∀ e ∈ silence, e = .tick ∨ (∃ c, e = .period c) ∨ ∃ p, e = .main p) ∧
    ({ start with sched := silence.map Item.event } : State).sched = silence.map Item.event ++ [] :=
  ⟨by decide, by decide, by decide, by simp [silence], by simp⟩
theorem witness_FailSafe :
    Inv { recov with sched := stray.map Item.event } ∧ recov.mphase = .recovery ∧ recov.fail = true ∧ recov.escE = false ∧
    (∀ e ∈ stray, e ≠ .reset) ∧
    ¬ escSequence.Sublist (stray.filterMap fun e => match e with | .rx b => some b | _ => none) :=
  ⟨witness_inv_recov, rfl, rfl, rfl, by decide, by decide⟩
/-- A frame on its way, and then one main step. -/
def sending (f : Frame) : State :=
  { base with sched := f.bytes.map (fun b => Item.event (.rx b)) ++ [.event (.main .enterFirst)] }
theorem witness_FrameIsReceived :
    (∀ f ∈ [f9, f6, f4], (sending f).sync = true ∧ (sending f).idx = 0 ∧ (sending f).ready = false ∧
      (sending f).fail = false ∧ (sending f).mphase = .run ∧
      (sending f).sched = f.bytes.map (fun b => Item.event (.rx b)) ++ .event (.main .enterFirst) :: []) ∧
    f9.marker ≠ 0x43#8 ∧ (f6.marker = 0x43#8 ∧ f6.checksum ≠ f6.chk) ∧ (f4.marker = 0x43#8 ∧ f4.checksum = f4.chk) := by
  decide
theorem witness_FailIsCleared :
    (∃ t, exec .escFF lostEnd = .next t ∧ lostEnd.fail = true ∧ t.fail = false) ∧
    (∃ t, exec .tickExpire { base with tcnt := 4 } = .next t ∧ t.fail = true) := ⟨⟨_, rfl, rfl, rfl⟩, _, rfl, rfl⟩
theorem witness_LinkStateGraph :
    (∃ t, exec (.rx 0xFF) lostEnd = .next t ∧ lostEnd.sync = false ∧ t.sync = true) ∧
    (∃ t, exec .dispatch (full f9 base) = .next t ∧ (full f9 base).sync = true ∧ t.sync = false) :=
  ⟨⟨_, rfl, rfl, rfl⟩, _, rfl, rfl, rfl⟩
theorem witness_Actuators :
    (∃ t, exec .dispG (full f4 base) = .next t ∧ t.pw ≠ base.pw ∧ t.doutA ≠ base.doutA) ∧
    (∃ t, exec (.period .ch1) start = .next t ∧ t.pwa.get .ch1 ≠ start.pwa.get .ch1) ∧
    (∃ t, exec .recEnter tripped = .next t ∧ t.pw ≠ tripped.pw) :=
  ⟨⟨_, rfl, by decide, by decide⟩, ⟨_, rfl, by decide⟩, _, rfl, by decide⟩
theorem witness_OutboundLog : ∃ t, exec (.rx 0x00) base = .next t := ⟨_, rfl⟩
theorem witness_OverrunIsSticky : ∃ t, exec (.rx 0x43) (full f1 base) = .next t ∧ (full f1 base).ovr = false ∧ t.ovr = true :=
  ⟨_, rfl, rfl, rfl⟩
theorem witness_Buffer : ∃ t, exec (.data 0x44) { full f1 base with idx := 0 } = .next t ∧
    bufAt t 0 ≠ bufAt { full f1 base with idx := 0 } 0 := ⟨_, rfl, by decide⟩
theorem witness_Disabled_reception :
    ¬((full f1 base).sync = true ∧ (full f1 base).idx.val ≤ 13) ∧ ¬(base.sync = true ∧ base.idx = 14) ∧
    (lostEnd.escD = true ∧ (0xFF#8 : Byte) = 0xFF#8) ∧ base.sync = true ∧ (lost.sync = false ∧ lost.escD = false) ∧
    (lostEnd.sync = false ∧ (0x44#8 : Byte) = 0x44#8 ∧ lostEnd.escN = true) := by decide
theorem witness_Disabled_dispatch :
    dispatchEnabled (full f1 recov) = false ∧
    (dispatchEnabled (full f1 base) = true ∧ bufAt (full f1 base) 0 = 0x43#8 ∧ (full f1 base).sync = true ∧
      (frameOf (full f1 base)).checksum = bufAt (full f1 base) 9) ∧
    (dispatchEnabled (full f6 base) = true ∧ (frameOf (full f6 base)).checksum ≠ bufAt (full f6 base) 9) ∧
    (dispatchEnabled (full f9 base) = true ∧ bufAt (full f9 base) 0 ≠ 0x43#8) ∧
    (f1.marker = 0x43#8 ∧ f1.checksum = f1.chk) ∧ f6.checksum ≠ f6.chk ∧ f9.marker ≠ 0x43#8 := by decide
theorem witness_Disabled_main :
    recov.mphase = .recovery ∧ base.mphase = .run ∧ base.fail = false ∧ tripped.fail = true ∧ (full f1 base).ready = true ∧
    ((full f1 { tripped with cfg := cfgFail }).fail = true ∧ cfgFail.priority = .failFirst) ∧
    (({ recov with fail := false, sync := true } : State).mphase = .recovery ∧
      ({ recov with fail := false, sync := true } : State).fail = false) ∧
    ({ base with tcnt := 4 } : State).cfg.tTimeout ≤ 4 + 1 ∧
    ({ base with tcnt := 3 } : State).tcnt + 1 ≠ base.cfg.tTimeout := by decide
/-- Recovery phase, resynchronized. -/
def recovered : State := { recov with fail := false, sync := true }

theorem witness_inv_recovered : Inv recovered where
  buf_wf := by decide
  filled := by decide
  ready_filled := by decide
  full_ready := by decide
  esc_d_n := by decide
  esc_n_e := by decide
  sync_clear := by decide
  tcnt_lt := by decide
  run_searching := by decide
  recovered_sync := by decide
  recovery_neutral := by decide
  pw_range := fun c => by cases c <;> exact pulse_of_check (by decide)
  pwa_range := fun c => by cases c <;> exact pulse_of_check (by decide)
  sched_fired := by decide

theorem witness_ModeTransitions :
    (∃ t, exec .dispatch (full f9 base) = .next t ∧ modeOf (full f9 base) = .normal ∧ modeOf t = .searching) ∧
    (∃ t, exec .recEnter tripped = .next t ∧ modeOf tripped = .tripped ∧ modeOf t = .recovery) ∧
    (∃ t, exec .rxResync lostEnd = .next t ∧ modeOf lostEnd = .tripped ∧ modeOf t = .normal) ∧
    (Inv recovered ∧ ∃ t, exec .recExit recovered = .next t ∧ modeOf recovered = .recovery ∧ modeOf t = .normal) :=
  ⟨⟨_, rfl, rfl, rfl⟩, ⟨_, rfl, rfl, rfl⟩, ⟨_, rfl, rfl, rfl⟩, witness_inv_recovered, _, rfl, rfl, rfl⟩
theorem witness_Configuration : ∃ c, Config.build 1248 1 11 .either = .ok c := ⟨_, rfl⟩
theorem test_config_refused : Config.build 1247 1 16 .either = .error .minPulseBelowMaxOffset ∧
    Config.build 65536 1 16 .either = .error .minPulseTooWide ∧ Config.build 1248 0 16 .either = .error .timeoutZero :=
  ⟨rfl, rfl, rfl⟩
theorem test_disabled_stops : stopped (exec .tick { base with tcnt := 4 }) = some (.notEnabled "TICK") := by decide
/-- R101 states no result above 1248: the row runs and only the one register is open. -/
theorem test_set_channel_runs : ∃ t, exec (.setChannel .ch1 1249) base = .next t ∧ t.pw.c2 = 1500 ∧ t.pwa = base.pwa :=
  ⟨_, rfl, rfl, rfl⟩

end Sys2Proof.Tests
end

/-! Proofs about the configuration: what is built, what the machine at reset holds, and that no step writes it. -/

namespace Sys2Proof

/-- A configuration that is built has the parameters asked for, and asking for the parameters of a configuration builds
it: the constraint of spec/00_scope.md R7 stands in the fields `minPulse_ge`, `minPulse_fits` and `tTimeout_pos`. -/
theorem Config.build_eq_ok_iff {mp tt w : Nat} {p : MainPriority} {c : Config} :
    Config.build mp tt w p = .ok c ↔ c.minPulse = mp ∧ c.tTimeout = tt ∧ c.pwWidth = w ∧ c.priority = p := by
  constructor
  · intro h
    unfold Config.build at h
    split at h
    · split at h
      · split at h
        · cases h
          exact ⟨rfl, rfl, rfl, rfl⟩
        · cases h
      · cases h
    · cases h
  · rintro ⟨rfl, rfl, rfl, rfl⟩
    simp only [Config.build, c.minPulse_ge, c.minPulse_fits, c.tTimeout_pos, dite_true]

/-- Settles O59: `Config.build` answers exactly the configuration with the given parameters, and a configuration with
them exists exactly within the constraint. -/
theorem configurationConstraint : Obligations.ConfigurationConstraint := by
  unfold Obligations.ConfigurationConstraint
  refine ⟨fun mp tt w p => ⟨?_, ?_⟩, fun mp tt w p c => Config.build_eq_ok_iff.mp,
    fun c => ⟨c.minPulse_ge, c.minPulse_fits, c.tTimeout_pos⟩⟩
  · rintro ⟨c, hc⟩
    obtain ⟨rfl, rfl, rfl, -⟩ := Config.build_eq_ok_iff.mp hc
    exact ⟨c.minPulse_ge, c.minPulse_fits, c.tTimeout_pos⟩
  · rintro ⟨hge, hfits, hpos⟩
    exact ⟨⟨mp, tt, w, p, hge, hfits, hpos⟩, Config.build_eq_ok_iff.mpr ⟨rfl, rfl, rfl, rfl⟩⟩

namespace Machine

/-- Settles O57: the flags and counters are literals of `State.resetOf`, the channels are filled with `MIN_PULSE`, and the
ranges are those every configuration carries, at `PW_WIDTH` 16. -/
theorem stateResetValues : Obligations.StateResetValues := by
  unfold Obligations.StateResetValues
  have hpulse (c : Channel) : (Channels.fill State.reset.cfg.minPulse).get c = State.reset.cfg.minPulse :=
    Channels.get_fill _ c
  have hmax : State.reset.cfg.minPulse ≤ 2 ^ 16 - 1 := State.reset.cfg.minPulse_fits
  exact ⟨rfl, rfl, rfl, rfl, rfl, rfl, rfl, rfl, rfl, rfl, fun c => ⟨hpulse c, hpulse c⟩, rfl, rfl, rfl, fun _ => rfl,
    State.reset.cfg.minPulse_ge, hmax, State.reset.cfg.tTimeout_pos, rfl, rfl⟩

/-- An event that answers a next state has executed the instruction it fetches. -/
theorem runEvent_eq_next {e : Event} {s t : State} (h : runEvent e s = .next t) :
    ∃ i, fetch e s = .ok i ∧ exec i s = .next t := by
  unfold runEvent at h
  split at h
  · exact ⟨_, ‹_›, h⟩
  · cases h

/-- Everything a step can do: it executes the instruction fetched for the environment's free event or for the next event
of the schedule, or the row the schedule names, in the state with that choice taken off. -/
theorem step_eq_next {s t : State} (h : step s = .next t) :
    (∃ i, s.sched = [] ∧ fetch (Config.environment s.draw) { s with draw := s.draw + 1 } = .ok i ∧
      exec i { s with draw := s.draw + 1 } = .next t) ∨
    (∃ e rest i, s.sched = .event e :: rest ∧ fetch e { s with sched := rest } = .ok i ∧
      exec i { s with sched := rest } = .next t) ∨
    (∃ i rest, s.sched = .op i :: rest ∧ exec i { s with sched := rest } = .next t) := by
  unfold step at h
  split at h
  case h_1 hs =>
    obtain ⟨i, hf, hx⟩ := runEvent_eq_next h
    exact .inl ⟨i, hs, hf, hx⟩
  case h_2 e rest hs =>
    obtain ⟨i, hf, hx⟩ := runEvent_eq_next h
    exact .inr (.inl ⟨e, rest, i, hs, hf, hx⟩)
  case h_3 i rest hs => exact .inr (.inr ⟨i, rest, hs, h⟩)

/-- No effect of an instruction names the field `cfg`; RESET takes it over from the state before. -/
theorem Effect.cfg_eq {i : Instr} {s t : State} (h : Effect i s t) : t.cfg = s.cfg := by
  cases h <;> rfl

/-- No instruction writes the configuration (spec/00_scope.md R6). -/
theorem exec_cfg {i : Instr} {s t : State} (h : exec i s = .next t) : t.cfg = s.cfg :=
  (exec_effect h).cfg_eq

/-- Settles O10: every step executes one instruction in a state of the same configuration, and no instruction writes it. -/
theorem configurationIsNeverWritten : Obligations.ConfigurationIsNeverWritten := by
  unfold Obligations.ConfigurationIsNeverWritten
  intro s t h
  rcases step_eq_next h with ⟨i, -, -, hx⟩ | ⟨e, rest, i, -, -, hx⟩ | ⟨i, rest, -, hx⟩ <;>
    exact (exec_cfg hx :)

end Machine

end Sys2Proof

/-! Proofs about the state: every step keeps the invariant, and which operations write which field. -/

namespace Sys2Proof

theorem decodeByteIn_isFired (c : DecodeCtx) (b : Byte) : (decodeByteIn c b).isFired = true := by
  unfold decodeByteIn
  repeat' split
  all_goals rfl

theorem decodeFrame_isFired (sync : Bool) (f : Frame) : (decodeFrame sync f).isFired = true := by
  rcases decodeFrame_cases sync f with ⟨-, e⟩ | ⟨-, -, -, e⟩ | ⟨-, -, -, e⟩ <;> rw [e] <;> rfl

namespace Machine

/-- What an event fetches is a row that the block itself fires. -/
theorem fetch_isFired {e : Event} {s : State} {i : Instr} (h : fetch e s = .ok i) : i.isFired = true := by
  cases e with
  | rx b =>
    cases h
    exact decodeByteIn_isFired _ b
  | tick =>
    cases h
    split <;> rfl
  | main pick =>
    cases hm : mainStep pick s with
    | dispatch =>
      rw [fetch_dispatch hm] at h
      cases h
      exact decodeFrame_isFired _ _
    | enter | iter | exit | idle =>
      simp only [fetch, hm] at h
      cases h
      rfl
  | period c =>
    cases h
    rfl
  | reset =>
    cases h
    rfl

/-! The enabling conditions of the main sequencer, as the phase and the flags they name. -/

theorem dispatchEnabled_iff {s : State} : dispatchEnabled s = true ↔
    s.mphase = .run ∧ s.ready = true ∧ (s.fail = false ∨ s.cfg.priority ≠ .failFirst) := by
  simp [dispatchEnabled, and_assoc]

theorem recEnterEnabled_iff {s : State} : recEnterEnabled s = true ↔
    s.mphase = .run ∧ s.fail = true ∧ (s.ready = false ∨ s.cfg.priority ≠ .readyFirst) := by
  simp [recEnterEnabled, and_assoc]

theorem recIterEnabled_iff {s : State} : recIterEnabled s = true ↔ s.mphase = .recovery ∧ s.fail = true := by
  simp [recIterEnabled]

theorem recExitEnabled_iff {s : State} : recExitEnabled s = true ↔ s.mphase = .recovery ∧ s.fail = false := by
  simp [recExitEnabled]

theorem tickEnabled_iff {s : State} : tickEnabled s = true ↔ s.tcnt + 1 < s.cfg.tTimeout := by
  simp [tickEnabled]

/-! Compare values in the range of spec/42_pwm.md R106. -/

theorem inPulseRange_minPulse (cfg : Config) : InPulseRange cfg cfg.minPulse := ⟨0, Nat.zero_le _, by simp⟩

theorem inPulseRange_fill (cfg : Config) (c : Channel) : InPulseRange cfg ((Channels.fill cfg.minPulse).get c) := by
  rw [Channels.get_fill]
  exact inPulseRange_minPulse cfg

/-- A mapped offset never borrows: it is at most 1248, and `MIN_PULSE` is at least that. -/
theorem inPulseRange_mapped (cfg : Config) (p : Byte) : InPulseRange cfg (cfg.minPulse - mapOffset p) :=
  ⟨min p.toNat posClip, Nat.min_le_right _ _, Nat.sub_add_cancel (Nat.le_trans (mapOffset_le p) cfg.minPulse_ge)⟩

theorem acceptFrame_pw_get (f : Frame) (s : State) (c : Channel) :
    (acceptFrame f s).pw.get c = s.cfg.minPulse - mapOffset (f.pos c) :=
  applyPositions_get f (transmit ackOk (consume s)) c

/-! The invariant under each operation. Every proof gives the clauses that speak of the fields the operation writes and
takes the others over from the state before. -/

/-- The model's own fields are free in the invariant, but that the schedule lists fired entries only. -/
theorem Inv.withOwnFields {s : State} (h : Inv s) {sched : List Item} (hs : sched.all Item.isFired = true)
    (draw epoch ret : Nat) : Inv { s with sched := sched, draw := draw, epoch := epoch, ret := ret } :=
  { h with sched_fired := hs }

theorem resetOf_meets_inv (cfg : Config) : Inv (State.resetOf cfg) where
  buf_wf := ⟨List.Pairwise.nil, fun _ hc => nomatch hc⟩
  filled _ ha := absurd ha (Nat.not_lt_zero _)
  ready_filled h := nomatch h
  full_ready h := nomatch h
  esc_d_n h := nomatch h
  esc_n_e h := nomatch h
  sync_clear _ := rfl
  tcnt_lt := cfg.tTimeout_pos
  run_searching _ h := nomatch h
  recovered_sync h := nomatch h
  recovery_neutral h := nomatch h
  pw_range := inPulseRange_fill cfg
  pwa_range := inPulseRange_fill cfg
  sched_fired := rfl

/-- After a store at the index the cells up to and including it are written. -/
theorem Inv.filled_write {s : State} (h : Inv s) (b : Byte) {a : Nat} (ha : a < s.idx.val + 1) :
    ((s.buf.write s.idx.val b).read a).isSome := by
  rw [read_write_isSome, Bool.or_eq_true, decide_eq_true_eq]
  exact (Nat.lt_succ_iff_lt_or_eq.mp ha).symm.imp id (h.filled a)

/-- The fourteenth byte completes the frame, and any other keeps a waiting frame complete. -/
theorem append_keeps_inv {s : State} (b : Byte) (h : Inv s) (hs : s.sync = true) (hx : s.idx.val ≤ 13) :
    Inv { receive b s with
      buf := s.buf.write s.idx.val b
      idx := idxSucc s.idx
      ready := readyAfter (idxSucc s.idx) s.ready } :=
  have hidx : (idxSucc s.idx).val = s.idx.val + 1 := idxSucc_of_lt hx
  { h with
    buf_wf := write_wf b (Nat.lt_succ_of_le hx) h.buf_wf
    filled := fun a ha => h.filled_write b (hidx ▸ ha)
    ready_filled := fun hr a ha => by
      simp only [readyAfter, Bool.or_eq_true, beq_iff_eq] at hr
      rcases hr with hr | hr
      · rw [read_write_isSome, h.ready_filled hr a ha, Bool.or_true]
      · rw [hr] at hidx
        exact h.filled_write b (hidx ▸ ha)
    full_ready := fun he => by
      rw [readyAfter, Bool.or_eq_true, beq_iff_eq]
      exact .inr he
    tcnt_lt := s.cfg.tTimeout_pos
    run_searching := fun _ hn => nomatch hs.symm.trans hn }

theorem overrun_keeps_inv {s : State} (b : Byte) (h : Inv s) : Inv (overrun b s) :=
  { h with tcnt_lt := s.cfg.tTimeout_pos }

/-- The letters set their flags in the order E, N, D only (spec/40_framesync.md R83). -/
theorem scan_keeps_inv {s : State} (b : Byte) (h : Inv s) (hs : s.sync = false) : Inv (scan b s) :=
  { h with
    esc_d_n := fun hd => by
      simp only [scan, escDAfter, Bool.or_eq_true, Bool.and_eq_true] at hd
      simp [scan, escNAfter, hd.elim h.esc_d_n And.right]
    esc_n_e := fun hn => by
      simp only [scan, escNAfter, Bool.or_eq_true, Bool.and_eq_true] at hn
      simp [scan, escEAfter, hn.elim h.esc_n_e And.right]
    sync_clear := fun hn => nomatch hn
    tcnt_lt := s.cfg.tTimeout_pos
    run_searching := fun hm _ => h.run_searching hm hs
    recovered_sync := fun hm hf => nomatch hs.symm.trans (h.recovered_sync hm hf) }

theorem resync_keeps_inv {s : State} (h : Inv s) : Inv (resync s) :=
  { h with
    filled := fun _ ha => absurd ha (Nat.not_lt_zero _)
    full_ready := fun he => nomatch he
    esc_d_n := fun hd => nomatch hd
    esc_n_e := fun hn => nomatch hn
    sync_clear := fun _ => rfl
    tcnt_lt := s.cfg.tTimeout_pos
    run_searching := fun _ hn => nomatch hn
    recovered_sync := fun _ _ => rfl }

/-- A consumed frame leaves nothing waiting, so that every clause about `ready` and `idx` holds of it. -/
theorem consume_keeps_inv {s : State} (h : Inv s) : Inv (consume s) :=
  { h with
    filled := fun _ ha => absurd ha (Nat.not_lt_zero _)
    ready_filled := fun hr => nomatch hr
    full_ready := fun he => nomatch he
    tcnt_lt := s.cfg.tTimeout_pos
    run_searching := fun _ _ => rfl }

theorem rejectFraming_keeps_inv {s : State} (h : Inv s) (hm : s.mphase = .run) : Inv (rejectFraming s) :=
  { consume_keeps_inv h with
    sync_clear := fun hn => nomatch hn
    run_searching := fun _ _ => rfl
    recovered_sync := fun hr => nomatch hm.symm.trans hr }

theorem rejectChecksum_keeps_inv {s : State} (h : Inv s) : Inv (rejectChecksum s) := { consume_keeps_inv h with }

theorem acceptFrame_keeps_inv {s : State} (f : Frame) (h : Inv s) (hm : s.mphase = .run) : Inv (acceptFrame f s) :=
  { consume_keeps_inv h with
    esc_d_n := fun hd => nomatch hd
    esc_n_e := fun hn => nomatch hn
    sync_clear := fun _ => rfl
    recovery_neutral := fun hr => nomatch hm.symm.trans hr
    pw_range := fun c => by
      rw [acceptFrame_pw_get]
      exact inPulseRange_mapped s.cfg _ }

theorem expire_keeps_inv {s : State} (h : Inv s) : Inv (expire s) :=
  { h with
    tcnt_lt := s.cfg.tTimeout_pos
    recovered_sync := fun _ hf => nomatch hf }

theorem recEnter_keeps_inv {s : State} (h : Inv s) (hf : s.fail = true) :
    Inv { neutralizeAll s with mphase := .recovery } :=
  { h with
    run_searching := fun hm => nomatch hm
    recovered_sync := fun _ hn => nomatch hf.symm.trans hn
    recovery_neutral := fun _ => rfl
    pw_range := inPulseRange_fill s.cfg }

theorem recIter_keeps_inv {s : State} (h : Inv s) (hm : s.mphase = .recovery) (hf : s.fail = true) :
    Inv (clearProgress { s with sync := false }) :=
  { h with
    esc_d_n := fun hd => nomatch hd
    esc_n_e := fun hn => nomatch hn
    sync_clear := fun _ => rfl
    run_searching := fun hr => nomatch hm.symm.trans hr
    recovered_sync := fun _ hn => nomatch hf.symm.trans hn }

/-- The recovery phase ends Synchronized (spec/43_watchdog.md R114), so no frame can wait in a Searching link. -/
theorem recExit_keeps_inv {s : State} (h : Inv s) (hm : s.mphase = .recovery) (hf : s.fail = false) :
    Inv { s with mphase := .run } :=
  { h with
    run_searching := fun _ hn => nomatch (h.recovered_sync hm hf).symm.trans hn
    recovered_sync := fun hr => nomatch hr
    recovery_neutral := fun hr => nomatch hr }

theorem commitChannel_keeps_inv {s : State} (c : Channel) (h : Inv s) : Inv (commitChannel c s) :=
  { h with
    pwa_range := fun d => by
      rw [commitChannel_pwa]
      by_cases hd : d = c
      · rw [hd, Channels.get_set_same]
        exact h.pw_range c
      · rw [Channels.get_set_other _ _ hd]
        exact h.pwa_range d }

/-- Every row that the block itself fires keeps the invariant. -/
theorem Effect.keeps_inv {i : Instr} {s t : State} (he : Effect i s t) (hi : i.isFired = true) (h : Inv s) : Inv t := by
  cases he with
  | append b _ hs hx => exact append_keeps_inv b h hs hx
  | overrun b => exact overrun_keeps_inv b h
  | scan b _ hs => exact scan_keeps_inv b h hs
  | resync => exact resync_keeps_inv h
  | framing _ _ he => exact rejectFraming_keeps_inv h (dispatchEnabled_iff.mp he).1
  | checksum => exact rejectChecksum_keeps_inv h
  | accept f _ he => exact acceptFrame_keeps_inv f h (dispatchEnabled_iff.mp he).1
  | tick he => exact { h with tcnt_lt := tickEnabled_iff.mp he }
  | expire => exact expire_keeps_inv h
  | enter he => exact recEnter_keeps_inv h (recEnterEnabled_iff.mp he).2.1
  | iter he => exact (recIterEnabled_iff.mp he).elim (recIter_keeps_inv h)
  | exit he => exact (recExitEnabled_iff.mp he).elim (recExit_keeps_inv h)
  | idle => exact h
  | period c => exact commitChannel_keeps_inv c h
  | reset => exact (resetOf_meets_inv s.cfg).withOwnFields h.sched_fired ..
  | transmit b hb => rcases hb with ⟨rfl, -⟩ | ⟨rfl, -⟩ | ⟨rfl, -⟩ | rfl <;> cases hi
  | map | chk | setChannel | setChannelFree | neutralizeAll | setDigitalOutputs => cases hi

/-- The head of the schedule is fired, and taking it off keeps the invariant. -/
theorem Inv.sched_cons {s : State} (h : Inv s) {item : Item} {rest : List Item} (hs : s.sched = item :: rest) :
    item.isFired = true ∧ Inv { s with sched := rest } := by
  have hall := h.sched_fired
  rw [hs, List.all_cons, Bool.and_eq_true] at hall
  exact ⟨hall.1, h.withOwnFields hall.2 ..⟩

/-- Settles O8: a step executes one fired row, fetched or named by the schedule, in a state that differs from `s` in the
model's own fields only, and every effect of a fired row keeps the invariant. -/
theorem stepKeepsTheInvariant : Obligations.StepKeepsTheInvariant := by
  unfold Obligations.StepKeepsTheInvariant
  intro s t h hst
  rcases step_eq_next hst with ⟨i, -, hf, hx⟩ | ⟨e, rest, i, hs, hf, hx⟩ | ⟨i, rest, hs, hx⟩
  · exact (exec_effect hx).keeps_inv (fetch_isFired hf) (h.withOwnFields h.sched_fired ..)
  · exact (exec_effect hx).keeps_inv (fetch_isFired hf) (h.sched_cons hs).2
  · obtain ⟨hi, hinv⟩ := h.sched_cons hs
    exact (exec_effect hx).keeps_inv hi hinv

/-! The buffer: when two states read the same cells. -/

theorem bufAt_eq_of_eq {s t : State} (hb : t.buf = s.buf) (he : t.epoch = s.epoch) (a : Nat) :
    bufAt t a = bufAt s a := by
  rw [bufAt, bufAt, hb, he]

/-- A written cell does not read as its power-on byte, which alone depends on the epoch. -/
theorem bufAt_epoch {s : State} {a : Nat} (h : (s.buf.read a).isSome) (n : Nat) :
    bufAt { s with epoch := n } a = bufAt s a := by
  obtain ⟨b, hb⟩ := Option.isSome_iff_exists.mp h
  simp [bufAt, hb]

theorem frameOf_epoch {s : State} (h : ∀ a, a < frameLen → (s.buf.read a).isSome) (n : Nat) :
    frameOf { s with epoch := n } = frameOf s := by
  have hcell (a : Nat) (ha : a < 14) := bufAt_epoch (h a ha) n
  simp [frameOf, hcell]

/-- Of the buffer a dispatch reads the frame it is given and nothing else, so the epoch passes through. -/
theorem dispatchFrame_epoch (f : Frame) (s : State) (n : Nat) :
    dispatchFrame f { s with epoch := n } = { dispatchFrame f s with epoch := n } := by
  rcases dispatchFrame_cases f s with ⟨h, e⟩ | ⟨hm, hs, hc, e⟩ | ⟨hm, hs, hc, e⟩ <;> rw [e]
  · exact dispatchFrame_of_framing (s := { s with epoch := n }) h
  · exact dispatchFrame_of_checksum (s := { s with epoch := n }) hm hs hc
  · exact dispatchFrame_of_good (s := { s with epoch := n }) hm hs hc

theorem exec_dispatch_eq_next {s t : State} :
    exec .dispatch s = .next t ↔ dispatchEnabled s = true ∧ t = dispatchFrame (frameOf s) s := by
  rw [exec, execDispatch, whenEnabled_eq_next, Host.Outcome.next.injEq, eq_comm (a := t)]

/-- Settles O29: a dispatch is enabled only while a frame waits, and then all fourteen cells have been written. -/
theorem powerOnBytesAreNeverDispatched : Obligations.PowerOnBytesAreNeverDispatched := by
  unfold Obligations.PowerOnBytesAreNeverDispatched
  intro s t n h hx
  obtain ⟨he, rfl⟩ := exec_dispatch_eq_next.mp hx
  obtain ⟨-, hready, -⟩ := dispatchEnabled_iff.mp he
  refine exec_dispatch_eq_next.mpr ⟨he, ?_⟩
  rw [frameOf_epoch (h.ready_filled hready) n]
  exact (dispatchFrame_epoch (frameOf s) s n).symm

/-! Who writes what: one lemma per field, from the effects of the instructions. -/

/-- A flag that is kept, cleared under `P` or set under `Q` falls only under `P` and rises only under `Q`. -/
theorem flag_falls_and_rises {x y : Bool} {P Q : Prop} (h : y = x ∨ (y = false ∧ P) ∨ (y = true ∧ Q)) :
    (x = true → y = false → P) ∧ (x = false → y = true → Q) := by
  rcases h with rfl | ⟨rfl, hp⟩ | ⟨rfl, hq⟩
  · exact ⟨fun ht hf => Bool.noConfusion (ht.symm.trans hf), fun hf ht => Bool.noConfusion (hf.symm.trans ht)⟩
  · exact ⟨fun _ _ => hp, fun _ ht => Bool.noConfusion ht⟩
  · exact ⟨fun _ hf => Bool.noConfusion hf, fun _ _ => hq⟩

/-- `fail` is cleared by the resynchronization and RESET and set by the expiry (spec/10_state.md R17). -/
theorem Effect.fail_cases {i : Instr} {s t : State} (h : Effect i s t) :
    t.fail = s.fail ∨
    (t.fail = false ∧
      (i = .reset ∨ (s.sync = false ∧ s.escD = true ∧ (i = .rx escByteFF ∨ i = .rxResync ∨ i = .escFF)))) ∨
    (t.fail = true ∧ i = .tickExpire) := by
  cases h with
  | resync hi hs hd => exact .inr (.inl ⟨rfl, .inr ⟨hs, hd, hi⟩⟩)
  | reset => exact .inr (.inl ⟨rfl, .inl rfl⟩)
  | expire => exact .inr (.inr ⟨rfl, rfl⟩)
  | _ => exact .inl rfl

/-- Settles O48: the three ways an effect treats `fail`. -/
theorem failIsClearedOnlyByResynchronization : Obligations.FailIsClearedOnlyByResynchronization := by
  unfold Obligations.FailIsClearedOnlyByResynchronization
  exact fun i s t h => flag_falls_and_rises (exec_effect h).fail_cases

/-- The link goes to Searching by a recovery iteration and a framing error, which is a bad marker if the link was
Synchronized, and to Synchronized by the resynchronization and RESET (spec/40_framesync.md R86). -/
theorem Effect.sync_cases {i : Instr} {s t : State} (h : Effect i s t) :
    t.sync = s.sync ∨
    (t.sync = false ∧
      (i = .recIter ∨ i = .dispS ∨ (∃ f, i = .cmdBadmarker f) ∨ (i = .dispatch ∧ bufAt s 0 ≠ marker))) ∨
    (t.sync = true ∧ (i = .reset ∨ (s.escD = true ∧ (i = .rx escByteFF ∨ i = .rxResync ∨ i = .escFF)))) := by
  cases h with
  | scan b hi hs => exact .inl hs.symm
  | resync hi _ hd => exact .inr (.inr ⟨rfl, .inr ⟨hd, hi⟩⟩)
  | reset => exact .inr (.inr ⟨rfl, .inl rfl⟩)
  | iter => exact .inr (.inl ⟨rfl, .inl rfl⟩)
  | framing f hi _ hf =>
    rcases hf with hm | hs
    · refine .inr (.inl ⟨rfl, .inr ?_⟩)
      rcases hi with ⟨rfl, rfl⟩ | ⟨rfl, -⟩ | rfl
      · exact .inr (.inr ⟨rfl, (frameOf s).markerOk_false_iff.mp hm⟩)
      · exact .inl rfl
      · exact .inr (.inl ⟨f, rfl⟩)
    · exact .inl hs.symm
  | _ => exact .inl rfl

/-- Settles O49: the three ways an effect treats `sync`. -/
theorem linkStateGraph : Obligations.LinkStateGraph := by
  unfold Obligations.LinkStateGraph
  exact fun i s t h => (flag_falls_and_rises (exec_effect h).sync_cases).symm

/-- The instruction is a dispatch that accepts its frame: it is enabled and answers `'G'` (spec/41_dispatch.md R93). -/
def AcceptsFrame (i : Instr) (s t : State) : Prop :=
  (i = .dispatch ∨ i = .dispG ∨ ∃ f, i = .cmd f) ∧ s.mphase = .run ∧ s.ready = true ∧ t.tx = s.tx ++ [ackOk]

theorem acceptsFrame_acceptFrame {i : Instr} {s : State} {f : Frame}
    (hi : (i = .dispatch ∧ f = frameOf s) ∨ (i = .dispG ∧ f = frameOf s) ∨ i = .cmd f)
    (he : dispatchEnabled s = true) : AcceptsFrame i s (acceptFrame f s) := by
  obtain ⟨hm, hr, -⟩ := dispatchEnabled_iff.mp he
  exact ⟨hi.imp And.left (.imp And.left fun hc => ⟨f, hc⟩), hm, hr, rfl⟩

/-- The pending values are written by the recovery entry and by an accepted frame (spec/10_state.md R12). -/
theorem Effect.pw_cases {i : Instr} {s t : State} (h : Effect i s t) (hi : i.isFired = true) (hr : i ≠ .reset) :
    t.pw = s.pw ∨ i = .recEnter ∨ AcceptsFrame i s t := by
  cases h with
  | accept f hi he => exact .inr (.inr (acceptsFrame_acceptFrame hi he))
  | enter => exact .inr (.inl rfl)
  | reset => exact absurd rfl hr
  | setChannel | setChannelFree | neutralizeAll => cases hi
  | _ => exact .inl rfl

/-- The digital outputs are written by an accepted frame (spec/10_state.md R23). -/
theorem Effect.dout_cases {i : Instr} {s t : State} (h : Effect i s t) (hi : i.isFired = true) (hr : i ≠ .reset) :
    (t.doutA = s.doutA ∧ t.doutB = s.doutB) ∨ AcceptsFrame i s t := by
  cases h with
  | accept f hi he => exact .inr (acceptsFrame_acceptFrame hi he)
  | reset => exact absurd rfl hr
  | setDigitalOutputs => cases hi
  | _ => exact .inl ⟨rfl, rfl⟩

/-- An applied value is written by the period boundary of its channel (spec/10_state.md R22). -/
theorem Effect.pwa_cases {i : Instr} {s t : State} (h : Effect i s t) (hr : i ≠ .reset) (c : Channel) :
    t.pwa.get c = s.pwa.get c ∨ i = .period c := by
  cases h with
  | period d =>
    by_cases hc : c = d
    · exact .inr (hc ▸ rfl)
    · exact .inl (Channels.get_set_other _ _ hc)
  | reset => exact absurd rfl hr
  | _ => exact .inl rfl

/-- Settles O50: the writers of each actuator field, among the rows the block fires. -/
theorem actuatorsHaveFewWriters : Obligations.ActuatorsHaveFewWriters := by
  unfold Obligations.ActuatorsHaveFewWriters
  intro i s t hi h hr
  have heff := exec_effect h
  refine ⟨(heff.pw_cases hi hr).resolve_left, fun hne => ?_, fun c => (heff.pwa_cases hr c).resolve_left⟩
  exact (heff.dout_cases hi hr).resolve_left fun ⟨ha, hb⟩ => hne.elim (· ha) (· hb)

/-- Settles O51: an effect other than RESET sends nothing, an acknowledgement, or the byte it receives. -/
theorem outboundLogOnlyGrows : Obligations.OutboundLogOnlyGrows := by
  unfold Obligations.OutboundLogOnlyGrows
  intro i s t h hr
  cases exec_effect h with
  | reset => exact absurd rfl hr
  | append | overrun | scan | resync | framing | checksum | accept | transmit => exact .inr ⟨_, rfl⟩
  | _ => exact .inl rfl

/-- `ovr` is set by an overrun and cleared by RESET (spec/10_state.md R19). -/
theorem Effect.ovr_cases {i : Instr} {s t : State} (h : Effect i s t) :
    t.ovr = s.ovr ∨ (t.ovr = false ∧ i = .reset) ∨
    (t.ovr = true ∧ s.sync = true ∧ s.idx = 14 ∧
      ∃ b, (i = .rx b ∨ i = .rxOvr b ∨ i = .overrun b) ∧ t.tx = s.tx ++ [b]) := by
  cases h with
  | overrun b hi hs hx => exact .inr (.inr ⟨rfl, hs, hx, b, hi, rfl⟩)
  | reset => exact .inr (.inl ⟨rfl, rfl⟩)
  | _ => exact .inl rfl

/-- Settles O52: the three ways an effect treats `ovr`. -/
theorem overrunIsSticky : Obligations.OverrunIsSticky := by
  unfold Obligations.OverrunIsSticky
  exact fun i s t h => flag_falls_and_rises (exec_effect h).ovr_cases

/-- The buffer is written by an append, at the frame index; only RESET begins a new epoch of power-on bytes. -/
theorem Effect.buf_cases {i : Instr} {s t : State} (h : Effect i s t) (hr : i ≠ .reset) :
    t.epoch = s.epoch ∧
    (t.buf = s.buf ∨
      ∃ b, (i = .rx b ∨ i = .rxAppend b ∨ i = .data b) ∧ s.sync = true ∧ s.idx.val ≤ 13 ∧
        t.buf = s.buf.write s.idx.val b) := by
  cases h with
  | append b hi hs hx => exact ⟨rfl, .inr ⟨b, hi, hs, hx, rfl⟩⟩
  | reset => exact absurd rfl hr
  | _ => exact ⟨rfl, .inl rfl⟩

theorem bufAt_of_write_other {s t : State} {k a : Nat} {b : Byte} (hb : t.buf = s.buf.write k b)
    (he : t.epoch = s.epoch) (ha : a ≠ k) : bufAt t a = bufAt s a := by
  rw [bufAt, bufAt, hb, he, read_write_other s.buf b ha]

/-- Settles O53: an effect other than RESET leaves the buffer or stores one byte at the frame index. -/
theorem bufferIsWrittenOnlyAtTheIndex : Obligations.BufferIsWrittenOnlyAtTheIndex := by
  unfold Obligations.BufferIsWrittenOnlyAtTheIndex
  intro i s t h hr
  obtain ⟨he, hb | ⟨b, hi, hs, hx, hb⟩⟩ := (exec_effect h).buf_cases hr
  · exact ⟨fun a _ => bufAt_eq_of_eq hb he a, fun hne => absurd (bufAt_eq_of_eq hb he _) hne⟩
  · exact ⟨fun a ha => bufAt_of_write_other hb he ha, fun _ => ⟨hs, hx, b, hi⟩⟩

/-- Settles O54: each row is `transmit` of its byte, which writes `tx` alone. -/
theorem outboundBytesAreAppended : Obligations.OutboundBytesAreAppended := by
  unfold Obligations.OutboundBytesAreAppended
  exact fun s => ⟨rfl, rfl, rfl, fun b => rfl⟩

end Machine

end Sys2Proof

/-! Proofs about the fetch: a step runs what its schedule entry fetches, and a dispatch runs the decoded frame. -/

namespace Sys2Proof

namespace Machine

/-- What an event fetches is read from the link, the buffer, the timer and the main sequencer, never from the
schedule. -/
theorem fetch_sched (e : Event) (s : State) (rest : List Item) : fetch e { s with sched := rest } = fetch e s := by
  cases e <;> rfl

/-- The step of an event executes what the event fetches before it is taken off the schedule. -/
theorem step_of_fetch {s : State} {e : Event} {rest : List Item} {i : Instr} (hs : s.sched = .event e :: rest)
    (hf : fetch e s = .ok i) : step s = exec i { s with sched := rest } :=
  (step_of_event hs).trans (runEvent_of_fetch ((fetch_sched e s rest).trans hf))

theorem fetch_rx_of_decode {b : Byte} {s : State} {i : Instr} {rest : List Byte}
    (hd : decode (decodeCtx s) .byteIn [b] = .ok (i, rest)) : fetch (.rx b) s = .ok i := by
  rw [fetch, hd]
  rfl

/-- The fourteen bytes of the buffer always decode, to a row of the frame they make (spec/30_encoding.md R68). -/
theorem decode_bufBytes (s : State) :
    decode (decodeCtx s) .frame14 (bufBytes s) = .ok (decodeFrame s.sync (frameOf s), []) := rfl

theorem eq_decodeFrame_of_decode {s : State} {i : Instr} {rest : List Byte}
    (hd : decode (decodeCtx s) .frame14 (bufBytes s) = .ok (i, rest)) : i = decodeFrame s.sync (frameOf s) := by
  rw [decode_bufBytes] at hd
  cases hd
  rfl

theorem fetch_tick_of_lt {s : State} (h : s.tcnt + 1 < s.cfg.tTimeout) : fetch .tick s = .ok .tick := by
  rw [fetch_tick, if_pos (tickEnabled_iff.mpr h)]

theorem fetch_tick_of_not_lt {s : State} (h : ¬ s.tcnt + 1 < s.cfg.tTimeout) : fetch .tick s = .ok .tickExpire := by
  rw [fetch_tick, if_neg (mt tickEnabled_iff.mp h)]

/-- A step with an empty schedule is the step of the environment's free event, listed as the only entry. -/
theorem step_of_nil_eq_step_listed {s : State} (h : s.sched = []) :
    step s = step { s with draw := s.draw + 1, sched := [.event (Config.environment s.draw)] } := by
  rw [step_of_nil h, step_of_event rfl, ← h]

/-- Settles O5: the schedule entry is taken off, and what it fetches is read off the decoder, the timer's threshold or
`mainStep`. -/
theorem stepRunsTheDecodedOperation : Obligations.StepRunsTheDecodedOperation := by
  unfold Obligations.StepRunsTheDecodedOperation
  refine ⟨fun s b rest i hs hd => step_of_fetch hs (fetch_rx_of_decode hd), fun s p rest i hs hm hd => ?_,
    fun s p rest hs => ?_, fun s rest => ⟨fun hs hlt => step_of_fetch hs (fetch_tick_of_lt hlt),
      fun hs hge => step_of_fetch hs (fetch_tick_of_not_lt hge), fun c hs => step_of_fetch hs (fetch_period c s),
      fun hs => step_of_fetch hs (fetch_reset s)⟩,
    fun s i rest => step_of_op, fun s => step_of_nil_eq_step_listed⟩
  · rw [eq_decodeFrame_of_decode hd]
    exact step_of_fetch hs (fetch_dispatch hm)
  · refine ⟨?_, ?_, ?_, ?_⟩ <;> exact fun hm => step_of_fetch hs (by simp [fetch_main, hm])

/-- The row that a frame decodes to does what dispatching the frame does: both make the tests of spec/41_dispatch.md R90
in the same priority, so the row's own enabling condition is met. -/
theorem exec_decodeFrame {s : State} (he : dispatchEnabled s = true) (f : Frame) :
    exec (decodeFrame s.sync f) s = .next (dispatchFrame f s) := by
  rcases decodeFrame_cases s.sync f with ⟨h, e⟩ | ⟨hm, hs, hc, e⟩ | ⟨hm, hs, hc, e⟩ <;> rw [e, exec]
  · rw [dispatchFrame_of_framing h]
    simp [execCmdBadmarker, whenEnabled_eq_next, he, h]
  · rw [dispatchFrame_of_good hm hs hc]
    simp [execCmd, he, hm, hs, hc]
  · rw [dispatchFrame_of_checksum hm hs hc]
    simp [execCmdBadchk, he, hm, hs, hc]

/-- Settles O23: both the dispatch and the decoded row do what dispatching the frame in the buffer does. -/
theorem dispatchRunsTheDecodedFrame : Obligations.DispatchRunsTheDecodedFrame := by
  unfold Obligations.DispatchRunsTheDecodedFrame
  intro s i rest he hd
  rw [eq_decodeFrame_of_decode hd, exec_decodeFrame he]
  exact exec_dispatch_eq_next.mpr ⟨he, rfl⟩

end Machine

end Sys2Proof

/-! Proofs about the encoding: decoder and encoder are inverse to each other on the rows that a link state selects. -/

namespace Sys2Proof

/-! One equation per wire format: a frame or a byte in front of any bytes is always read (spec/30_encoding.md R68). -/

theorem decode_frame_bytes (c : DecodeCtx) (f : Frame) (rest : List Byte) :
    decode c .frame14 (f.bytes ++ rest) = .ok (decodeFrame c.sync f, rest) := rfl

theorem decode_byteIn_cons (c : DecodeCtx) (b : Byte) (rest : List Byte) :
    decode c .byteIn (b :: rest) = .ok (decodeByteIn c b, rest) := rfl

theorem decode_byteOut_cons (c : DecodeCtx) (b : Byte) (rest : List Byte) :
    decode c .byteOut (b :: rest) = .ok (decodeByteOut b, rest) := rfl

/-- Fewer than fourteen bytes are no frame (spec/30_encoding.md R69). -/
theorem takeFrame_of_lt {bs : List Byte} (h : bs.length < 14) : takeFrame bs = .error .frameTooShort := by
  unfold takeFrame
  split
  · simp only [List.length_cons] at h
    omega
  · rfl

/-- Fourteen bytes or more are a frame and the bytes after it. -/
theorem exists_frame_bytes_append {bs : List Byte} (h : 14 ≤ bs.length) :
    ∃ f : Frame, f.bytes ++ bs.drop 14 = bs := by
  match bs, h with
  | b0 :: b1 :: b2 :: b3 :: b4 :: b5 :: b6 :: b7 :: b8 :: b9 :: b10 :: b11 :: b12 :: b13 :: rest, _ =>
    exact ⟨⟨b0, b1, b2, b3, b4, b5, b6, b7, b8, b9, b10, b11, b12, b13⟩, rfl⟩

theorem Frame.bytes_injective {f g : Frame} (h : f.bytes = g.bytes) : f = g := by
  cases f
  cases g
  simpa [Frame.bytes] using h

/-! What each decoding function reads, exactly: the well-formed, selected row of its format with the bytes given. -/

theorem decodeFrame_eq_iff {c : DecodeCtx} {f : Frame} {i : Instr} :
    decodeFrame c.sync f = i ↔
      i.wf = true ∧ i.selectedIn c = true ∧ i.format = .frame14 ∧ encode i = f.bytes := by
  constructor
  · rintro rfl
    rcases decodeFrame_cases c.sync f with ⟨h, e⟩ | ⟨hm, hs, hc, e⟩ | ⟨hm, hs, hc, e⟩ <;> rw [e]
    · simpa [Instr.wf, Instr.selectedIn, Instr.format, encode] using h
    · simp [Instr.wf, Instr.selectedIn, Instr.format, encode, hm, hs, hc]
    · simp [Instr.wf, Instr.selectedIn, Instr.format, encode, hm, hs, hc]
  · rintro ⟨hw, hs, hf, he⟩
    cases i with
    | cmd g | cmdBadchk g | cmdBadmarker g =>
      cases Frame.bytes_injective he
      simp_all [Instr.wf, Instr.selectedIn, decodeFrame]
    | _ => cases hf

theorem noise_selectedIn_iff {c : DecodeCtx} {b : Byte} : (Instr.noise b).selectedIn c = true ↔
    c.sync = false ∧ ¬(b = Machine.escByteN ∧ c.escE = true) ∧ ¬(b = Machine.escByteD ∧ c.escN = true) ∧
      ¬(b = Machine.escByteFF ∧ c.escD = true) := by
  simp only [Instr.selectedIn, Bool.and_eq_true, Bool.not_eq_true', Bool.and_eq_false_iff, beq_eq_false_iff_ne,
    Classical.not_and_iff_not_or_not, Bool.not_eq_true, and_assoc, ne_eq]

theorem decodeByteIn_eq_iff {c : DecodeCtx} {b : Byte} {i : Instr} :
    decodeByteIn c b = i ↔ i.wf = true ∧ i.selectedIn c = true ∧ i.format = .byteIn ∧ encode i = [b] := by
  constructor
  · intro h
    cases hs : c.sync with
    | true =>
      rw [decodeByteIn, if_pos hs] at h
      split at h
      next hfull => exact h ▸ ⟨rfl, by rw [Instr.selectedIn, hs, hfull]; rfl, rfl, rfl⟩
      next hfull => exact h ▸ ⟨rfl, by rw [Instr.selectedIn, hs, Bool.eq_false_iff.mpr hfull]; rfl, rfl, rfl⟩
    | false =>
      rw [decodeByteIn, if_neg (Bool.eq_false_iff.mp hs)] at h
      split at h
      next hE => exact h ▸ ⟨rfl, by rw [Instr.selectedIn, hs]; rfl, rfl, by rw [hE]; rfl⟩
      next hE =>
        split at h
        next hN => exact h ▸ ⟨rfl, by rw [Instr.selectedIn, hs, hN.2]; rfl, rfl, by rw [hN.1]; rfl⟩
        next hN =>
          split at h
          next hD => exact h ▸ ⟨rfl, by rw [Instr.selectedIn, hs, hD.2]; rfl, rfl, by rw [hD.1]; rfl⟩
          next hD =>
            split at h
            next hFF => exact h ▸ ⟨rfl, by rw [Instr.selectedIn, hs, hFF.2]; rfl, rfl, by rw [hFF.1]; rfl⟩
            next hFF => exact h ▸ ⟨bne_iff_ne.mpr hE, noise_selectedIn_iff.mpr ⟨hs, hN, hD, hFF⟩, rfl, rfl⟩
  · rintro ⟨hw, hs, hf, he⟩
    cases i with
    | noise b =>
      cases he
      obtain ⟨hs, hN, hD, hFF⟩ := noise_selectedIn_iff.mp hs
      simp_all only [Instr.wf, bne_iff_ne, decodeByteIn, if_false, Bool.false_eq_true]
    | escE | escN | escD | escFF | data | overrun =>
      cases he
      simp_all [Instr.selectedIn, decodeByteIn]
    | _ => cases hf

theorem decodeByteOut_eq_iff {c : DecodeCtx} {b : Byte} {i : Instr} :
    decodeByteOut b = i ↔ i.wf = true ∧ i.selectedIn c = true ∧ i.format = .byteOut ∧ encode i = [b] := by
  constructor
  · intro h
    unfold decodeByteOut at h
    split at h
    next hG => exact h ▸ ⟨rfl, rfl, rfl, by rw [hG]; rfl⟩
    next hG =>
      split at h
      next hK => exact h ▸ ⟨rfl, rfl, rfl, by rw [hK]; rfl⟩
      next hK =>
        split at h
        next hS => exact h ▸ ⟨rfl, rfl, rfl, by rw [hS]; rfl⟩
        next hS => exact h ▸ ⟨rfl, by simp [Instr.selectedIn, hG, hK, hS], rfl, rfl⟩
  · rintro ⟨-, hs, hf, he⟩
    cases i with
    | ackG | nakK | nakS | echo =>
      cases he
      simp_all [Instr.selectedIn, decodeByteOut]
    | _ => cases hf

/-- No link state selects a row without a wire encoding (spec/30_encoding.md R75). -/
theorem format_ne_event_of_selectedIn {c : DecodeCtx} {i : Instr} (h : i.selectedIn c = true) : i.format ≠ .event := by
  intro hf
  cases i with
  | cmd | cmdBadchk | cmdBadmarker | escE | escN | escD | escFF | noise | data | overrun | ackG | nakK | nakS | echo =>
    cases hf
  | _ => cases h

theorem encode_length (i : Instr) : (encode i).length = i.format.length := by cases i <;> rfl

theorem exists_encode_eq_frame_bytes {i : Instr} (h : i.format = .frame14) : ∃ f : Frame, encode i = f.bytes := by
  have hl : (encode i).length = 14 := by rw [encode_length, h]; rfl
  obtain ⟨f, hf⟩ := exists_frame_bytes_append (Nat.le_of_eq hl.symm)
  rw [List.drop_of_length_le (Nat.le_of_eq hl), List.append_nil] at hf
  exact ⟨f, hf.symm⟩

theorem exists_encode_eq_byte {i : Instr} (h : i.format.length = 1) : ∃ b, encode i = [b] :=
  List.length_eq_one_iff.mp ((encode_length i).trans h)

/-- What the decoder reads is well-formed, selected, and encodes to the bytes read. -/
theorem decode_sound {c : DecodeCtx} {fmt : Format} {bs rest : List Byte} {i : Instr}
    (h : decode c fmt bs = .ok (i, rest)) :
    i.wf = true ∧ i.selectedIn c = true ∧ i.format = fmt ∧ encode i ++ rest = bs := by
  cases fmt with
  | frame14 =>
    by_cases hl : bs.length < 14
    · simp [decode, takeFrame_of_lt hl] at h
    · obtain ⟨f, hf⟩ := exists_frame_bytes_append (Nat.le_of_not_lt hl)
      rw [← hf, decode_frame_bytes] at h
      cases h
      obtain ⟨hw, hs, hfmt, he⟩ := decodeFrame_eq_iff.mp (rfl : decodeFrame c.sync f = _)
      exact ⟨hw, hs, hfmt, he ▸ hf⟩
  | byteIn =>
    cases bs with
    | nil => cases h
    | cons b rest =>
      cases h
      obtain ⟨hw, hs, hfmt, he⟩ := decodeByteIn_eq_iff.mp (rfl : decodeByteIn c b = _)
      exact ⟨hw, hs, hfmt, he ▸ rfl⟩
  | byteOut =>
    cases bs with
    | nil => cases h
    | cons b rest =>
      cases h
      obtain ⟨hw, hs, hfmt, he⟩ := decodeByteOut_eq_iff.mp (rfl : decodeByteOut b = _)
      exact ⟨hw, hs, hfmt, he ▸ rfl⟩
  | event => cases h

/-- A well-formed, selected instruction is read back from its encoding, with the bytes after it left. -/
theorem decode_encode {c : DecodeCtx} {i : Instr} (rest : List Byte) (hw : i.wf = true)
    (hs : i.selectedIn c = true) : decode c i.format (encode i ++ rest) = .ok (i, rest) := by
  cases hf : i.format with
  | frame14 =>
    obtain ⟨f, he⟩ := exists_encode_eq_frame_bytes hf
    rw [he, decode_frame_bytes, decodeFrame_eq_iff.mpr ⟨hw, hs, hf, he⟩]
  | byteIn =>
    obtain ⟨b, he⟩ := exists_encode_eq_byte (i := i) (by rw [hf]; rfl)
    rw [he, List.singleton_append, decode_byteIn_cons, decodeByteIn_eq_iff.mpr ⟨hw, hs, hf, he⟩]
  | byteOut =>
    obtain ⟨b, he⟩ := exists_encode_eq_byte (i := i) (by rw [hf]; rfl)
    rw [he, List.singleton_append, decode_byteOut_cons, decodeByteOut_eq_iff.mpr ⟨hw, hs, hf, he⟩]
  | event => exact absurd hf (format_ne_event_of_selectedIn hs)

/-- Settles O1, format by format: the encoding is the bytes of one frame or one byte, which the decoding function of the
format reads as exactly the selected row. -/
theorem decodeOfEncodeIsTheInstruction : Obligations.DecodeOfEncodeIsTheInstruction := by
  unfold Obligations.DecodeOfEncodeIsTheInstruction
  exact fun c i rest hw hs => decode_encode rest hw hs

/-- Settles O2: a byte string of a wire format begins with one frame or one byte, and the row read from it is the one
that encodes to it. -/
theorem decodedInstructionReencodes : Obligations.DecodedInstructionReencodes := by
  unfold Obligations.DecodedInstructionReencodes
  exact fun c fmt bs i rest h => decode_sound h

/-- Settles O3: fourteen bytes make a frame and fewer do not, and one byte is always an inbound and an outbound byte. -/
theorem decoderRejectsOnlyShortInput : Obligations.DecoderRejectsOnlyShortInput := by
  unfold Obligations.DecoderRejectsOnlyShortInput
  refine ⟨fun _ _ => rfl, fun _ => ⟨rfl, rfl⟩, fun c bs h => ?_, fun c bs h => ?_, fun c b rest => ?_⟩
  · simp [decode, takeFrame_of_lt h]
  · obtain ⟨f, hf⟩ := exists_frame_bytes_append h
    exact ⟨decodeFrame c.sync f, hf ▸ decode_frame_bytes c f (bs.drop 14)⟩
  · exact ⟨_, _, decode_byteIn_cons c b rest, decode_byteOut_cons c b rest⟩

/-- Settles O4: each word is computed by the decoder; the frame's checksum byte 0x66 is the exclusive-or of its bytes 1
to 8. -/
theorem wordsOfTheSpecDecode : Obligations.WordsOfTheSpecDecode := by
  unfold Obligations.WordsOfTheSpecDecode
  exact ⟨rfl, rfl, rfl, rfl⟩

end Sys2Proof

/-! Proofs about the reception: what a byte does in each link state, and that its row does the same. -/

namespace Sys2Proof

namespace Machine

section
variable {s : State} {b : Byte}

theorem ovrEnabled_iff : ovrEnabled s = true ↔ s.sync = true ∧ s.idx = 14 := by simp [ovrEnabled]

theorem appendEnabled_iff : appendEnabled s = true ↔ s.sync = true ∧ s.idx.val ≤ 13 := by simp [appendEnabled]

/-! A byte received while Synchronized with a free cell is appended, under each of its names (spec/40_framesync.md
R81). -/

theorem exec_rx_of_free (hs : s.sync = true) (hx : s.idx.val ≤ 13) : exec (.rx b) s = append b s := by
  simp [exec, execRx, hs, hx]

theorem exec_rxAppend_of_free (hs : s.sync = true) (hx : s.idx.val ≤ 13) : exec (.rxAppend b) s = append b s := by
  rw [exec, execRxAppend, appendEnabled_iff.mpr ⟨hs, hx⟩, whenEnabled_true]

theorem exec_data_of_free (hs : s.sync = true) (hx : s.idx.val ≤ 13) : exec (.data b) s = append b s := by
  rw [exec, execData, appendEnabled_iff.mpr ⟨hs, hx⟩, whenEnabled_true]

/-! A byte received while a complete frame waits is an overrun, under each of its names (spec/40_framesync.md R82). -/

theorem exec_rx_of_full (hs : s.sync = true) (hx : s.idx = 14) : exec (.rx b) s = .next (overrun b s) := by
  have hfull : ¬ s.idx.val ≤ 13 := by
    rw [hx]
    decide
  rw [exec, execRx, if_pos hs, if_neg hfull]

theorem exec_rxOvr_of_full (hs : s.sync = true) (hx : s.idx = 14) : exec (.rxOvr b) s = .next (overrun b s) := by
  rw [exec, execRxOvr, ovrEnabled_iff.mpr ⟨hs, hx⟩, whenEnabled_true]

theorem exec_overrun_of_full (hs : s.sync = true) (hx : s.idx = 14) : exec (.overrun b) s = .next (overrun b s) := by
  rw [exec, execOverrun, ovrEnabled_iff.mpr ⟨hs, hx⟩, whenEnabled_true]

/-! A byte received while Searching is searched, under each of its names (spec/40_framesync.md R80). -/

theorem exec_rx_of_searching (hs : s.sync = false) : exec (.rx b) s = .next (search b s) := by
  simp [exec, execRx, hs]

/-- The rows of the escape bytes search their byte too, whether or not their condition on the flags is met. -/
theorem exec_esc_of_searching (hs : s.sync = false) :
    exec .escE s = .next (search escByteE s) ∧ exec .escN s = .next (search escByteN s) ∧
    exec .escD s = .next (search escByteD s) ∧ exec .escFF s = .next (search escByteFF s) := by
  simp [exec, execEscE, execEscN, execEscD, execEscFF, hs]

/-- The condition of `NOISE` is that its byte is well-formed noise which the link state selects. -/
theorem noiseSelected_eq (b : Byte) (s : State) :
    noiseSelected b s = ((Instr.noise b).wf && (Instr.noise b).selectedIn (decodeCtx s)) := by
  cases hs : s.sync <;> simp [noiseSelected, Instr.wf, Instr.selectedIn, decodeCtx, hs, Bool.and_assoc]

theorem exec_noise_of_searching (hs : s.sync = false) (hE : b ≠ escByteE) (hN : ¬(b = escByteN ∧ s.escE = true))
    (hD : ¬(b = escByteD ∧ s.escN = true)) (hFF : ¬(b = escByteFF ∧ s.escD = true)) :
    exec (.noise b) s = .next (search b s) := by
  have hsel : (Instr.noise b).selectedIn (decodeCtx s) = true := noise_selectedIn_iff.mpr ⟨hs, hN, hD, hFF⟩
  have hw : (Instr.noise b).wf = true := bne_iff_ne.mpr hE
  rw [exec, execNoise, noiseSelected_eq, hw, hsel, Bool.and_self, whenEnabled_true]

theorem completesEscape_iff {d : Bool} : completesEscape b d = true ↔ d = true ∧ b = escByteFF := by
  simp [completesEscape]

/-- A byte received while Searching is received by `RX.RESYNC` if it completes the sequence, else by `RX.SCAN`. -/
theorem exec_rx_eq_scan_or_resync (hs : s.sync = false) :
    exec (.rx b) s = exec (.rxScan b) s ∨ exec (.rx b) s = exec .rxResync s := by
  rw [exec_rx_of_searching hs]
  cases hc : completesEscape b s.escD with
  | false =>
    left
    simp [exec, execRxScan, scanEnabled, hs, hc, search_of_not_completes hc]
  | true =>
    right
    simp [exec, execRxResync, resyncEnabled, hs, (completesEscape_iff.mp hc).1, search_of_completes hc]

/-! The link states that select the rows of a byte received while Synchronized (spec/30_encoding.md R66). -/

theorem data_selectedIn_iff : (Instr.data b).selectedIn (decodeCtx s) = true ↔ s.sync = true ∧ s.idx.val ≤ 13 := by
  have : s.idx ≠ 14 ↔ s.idx.val ≤ 13 := by omega
  simp [Instr.selectedIn, decodeCtx, this]

theorem overrun_selectedIn_iff : (Instr.overrun b).selectedIn (decodeCtx s) = true ↔ s.sync = true ∧ s.idx = 14 := by
  simp [Instr.selectedIn, decodeCtx]

end

/-- A row of an inbound byte that the link state selects is enabled in it, and does what receiving its byte does. -/
theorem exec_eq_rx_of_selectedIn {s : State} {b : Byte} {i : Instr} (hw : i.wf = true)
    (hsel : i.selectedIn (decodeCtx s) = true) (hf : i.format = .byteIn) (he : encode i = [b]) :
    exec i s = exec (.rx b) s := by
  cases i with
  | data =>
    cases he
    obtain ⟨hs, hx⟩ := data_selectedIn_iff.mp hsel
    rw [exec_data_of_free hs hx, exec_rx_of_free hs hx]
  | overrun =>
    cases he
    obtain ⟨hs, hx⟩ := overrun_selectedIn_iff.mp hsel
    rw [exec_overrun_of_full hs hx, exec_rx_of_full hs hx]
  | noise =>
    cases he
    obtain ⟨hs, hN, hD, hFF⟩ := noise_selectedIn_iff.mp hsel
    rw [exec_noise_of_searching hs (bne_iff_ne.mp hw) hN hD hFF, exec_rx_of_searching hs]
  | escE | escN | escD | escFF =>
    cases he
    have hs : s.sync = false := by simp_all [Instr.selectedIn, decodeCtx]
    simp [exec_esc_of_searching hs, exec_rx_of_searching hs]
  | _ => cases hf

/-- The row that a received byte is decoded to does what receiving the byte does. -/
theorem exec_decodeByteIn (b : Byte) (s : State) : exec (decodeByteIn (decodeCtx s) b) s = exec (.rx b) s := by
  obtain ⟨hw, hsel, hf, he⟩ := decodeByteIn_eq_iff.mp (rfl : decodeByteIn (decodeCtx s) b = _)
  exact exec_eq_rx_of_selectedIn hw hsel hf he

/-- Settles O13: a decoded row is selected by the link state, and a selected row is enabled. -/
theorem decodedByteIsTheReception : Obligations.DecodedByteIsTheReception := by
  unfold Obligations.DecodedByteIsTheReception
  intro s b i rest hd
  rw [decode_byteIn_cons] at hd
  cases hd
  exact exec_decodeByteIn b s

theorem decodeByteIn_of_searching {c : DecodeCtx} (hs : c.sync = false) (b : Byte) :
    decodeByteIn c b ∈ [Instr.escE, .escN, .escD, .escFF, .noise b] := by
  rw [decodeByteIn, if_neg (Bool.eq_false_iff.mp hs)]
  repeat' split
  all_goals simp

/-- Settles O12: the link state selects `DATA`, `OVERRUN` or a row of the escape sequence, and enables the reception of
that name. -/
theorem byteMeaningDependsOnTheLink : Obligations.ByteMeaningDependsOnTheLink := by
  unfold Obligations.ByteMeaningDependsOnTheLink
  intro s b rest
  refine ⟨fun hs hx => ⟨?_, ?_⟩, fun hs hx => ⟨?_, ?_⟩, fun hs => ⟨⟨_, ?_, decode_byteIn_cons ..⟩, ?_⟩⟩
  · exact decode_encode rest rfl (data_selectedIn_iff.mpr ⟨hs, hx⟩)
  · rw [exec_rx_of_free hs hx, exec_rxAppend_of_free hs hx]
  · exact decode_encode rest rfl (overrun_selectedIn_iff.mpr ⟨hs, hx⟩)
  · rw [exec_rx_of_full hs hx, exec_rxOvr_of_full hs hx]
  · exact decodeByteIn_of_searching hs b
  · exact exec_rx_eq_scan_or_resync hs

/-- A byte that does not complete the escape sequence is echoed, and latches the flags (spec/40_framesync.md R83). -/
theorem search_of_not_ff {b : Byte} {s : State} (hs : s.sync = false) (h : ¬(b = escByteFF ∧ s.escD = true)) :
    search b s = { s with
      tx := s.tx ++ [b], tcnt := 0
      escE := escEAfter b s.escE, escN := escNAfter b s.escE s.escN, escD := escDAfter b s.escN s.escD } := by
  have hc : completesEscape b s.escD = false := by
    rw [← Bool.not_eq_true, completesEscape_iff]
    exact fun hc => h hc.symm
  rw [search_of_not_completes hc, scan, ← hs]
  rfl

/-- Settles O17: each row searches its byte; only 0xFF with `esc_d` set completes the sequence, and of the other bytes
each latches the one flag of its letter. -/
theorem escapeBytesAdvanceTheRecognizer : Obligations.EscapeBytesAdvanceTheRecognizer := by
  unfold Obligations.EscapeBytesAdvanceTheRecognizer
  intro s hs
  obtain ⟨hE, hN, hD, hFF⟩ := exec_esc_of_searching hs
  refine ⟨?_, ?_, ?_, fun hd => ?_, fun hd => ?_⟩
  · simp [hE, search_of_not_ff hs, escEAfter, escNAfter, escDAfter]
  · simp [hN, search_of_not_ff hs, escEAfter, escNAfter, escDAfter]
  · simp [hD, search_of_not_ff hs, escEAfter, escNAfter, escDAfter]
  · simp [hFF, search_of_not_ff hs, hd, escEAfter, escNAfter, escDAfter]
  · rw [hFF, search_of_completes (completesEscape_iff.mpr ⟨hd, rfl⟩), resync_eq]

/-- Settles O18: noise is scanned, and none of the letters' conditions latches its flag. -/
theorem noiseOnlyEchoes : Obligations.NoiseOnlyEchoes := by
  unfold Obligations.NoiseOnlyEchoes
  intro s b hs hE hN hD hFF
  rw [exec_noise_of_searching hs hE hN hD hFF, search_of_not_ff hs hFF]
  have hE' : escEAfter b s.escE = s.escE := by simp [escEAfter, hE]
  have hN' : escNAfter b s.escE s.escN = s.escN := by simp_all [escNAfter]
  have hD' : escDAfter b s.escN s.escD = s.escD := by simp_all [escDAfter]
  rw [hE', hN', hD']

end Machine

end Sys2Proof

/-! Proofs about runs of receptions: what the recognizer makes of a byte string. -/

namespace Sys2Proof

namespace Machine

/-- A run of `k` steps and one step more. -/
theorem run_concat {s t u : State} {k : Nat} (hk : Host.Core.run Sys2Proof.core k s = .next t) (h : step t = .next u) :
    Host.Core.run Sys2Proof.core (k + 1) s = .next u := by
  rw [run_add k 1 hk, run_succ 0 h, run_zero]

/-- The step of a received byte is its reception. -/
theorem step_rx {s : State} {b : Byte} {rest : List Item} (h : s.sched = .event (.rx b) :: rest) :
    step s = exec (.rx b) { s with sched := rest } := by
  rw [step_of_event h, runEvent_of_fetch (fetch_rx b _), exec_decodeByteIn]

/-- The step of a byte that is scanned: echo, timer reset and the latched flags. -/
theorem step_rx_of_scan {s : State} {b : Byte} {rest : List Item} (h : s.sched = .event (.rx b) :: rest)
    (hs : s.sync = false) (hc : ¬(b = escByteFF ∧ s.escD = true)) :
    step s = .next { s with
      sched := rest, tx := s.tx ++ [b], tcnt := 0
      escE := escEAfter b s.escE, escN := escNAfter b s.escE s.escN, escD := escDAfter b s.escN s.escD } := by
  rw [step_rx h, exec_rx_of_searching (s := { s with sched := rest }) hs,
    search_of_not_ff (s := { s with sched := rest }) hs hc]

/-- The step of the byte that completes the escape sequence. -/
theorem step_rx_of_resync {s : State} {rest : List Item} (h : s.sched = .event (.rx escByteFF) :: rest)
    (hs : s.sync = false) (hd : s.escD = true) :
    step s = .next (resync { s with sched := rest }) := by
  rw [step_rx h, exec_rx_of_searching (s := { s with sched := rest }) hs,
    search_of_completes (s := { s with sched := rest }) (completesEscape_iff.mpr ⟨hd, rfl⟩)]

/-- The schedule that lists the receptions of a byte string. -/
def receptions (bs : List Byte) : List Item := bs.map fun b => .event (.rx b)

theorem receptions_concat (bs : List Byte) (b : Byte) (rest : List Item) :
    receptions (bs ++ [b]) ++ rest = receptions bs ++ .event (.rx b) :: rest := by
  simp [receptions]

/-- A run goes over its bytes from the first to the last, so what holds of it is shown by adding a last byte. -/
theorem list_concat_induction {α : Type} {P : List α → Prop} (nil : P [])
    (concat : ∀ (l : List α) (a : α), P l → P (l ++ [a])) (l : List α) : P l := by
  have hreverse (m : List α) : P m.reverse := by
    induction m with
    | nil => exact nil
    | cons a m ih =>
      rw [List.reverse_cons]
      exact concat _ a ih
  exact l.reverse_reverse ▸ hreverse l.reverse

/-- A sequence with a last letter is a subsequence of a longer string if it was one before, or if the new byte is the
last letter and the letters before it were a subsequence. -/
theorem concat_sublist_concat {l m : List Byte} {x b : Byte} :
    (l ++ [x]).Sublist (m ++ [b]) ↔ (l ++ [x]).Sublist m ∨ (b = x ∧ l.Sublist m) := by
  rw [← List.reverse_sublist, ← List.reverse_sublist (l₁ := l ++ [x]), ← List.reverse_sublist (l₁ := l)]
  simp only [List.reverse_append, List.reverse_singleton, List.singleton_append, List.sublist_cons_iff]
  refine or_congr_right ⟨?_, ?_⟩
  · rintro ⟨r, hr, hsub⟩
    cases hr
    exact ⟨rfl, hsub⟩
  · rintro ⟨rfl, hsub⟩
    exact ⟨_, rfl, hsub⟩

/-- The state after a byte string was scanned from a Searching state without progress: the flags say which of E, EN and
END are subsequences of the string. -/
def scannedAll (bs : List Byte) (rest : List Item) (s : State) : State :=
  { s with
    sched := rest
    tx := s.tx ++ bs
    tcnt := if bs = [] then s.tcnt else 0
    escE := decide ([escByteE].Sublist bs)
    escN := decide ([escByteE, escByteN].Sublist bs)
    escD := decide ([escByteE, escByteN, escByteD].Sublist bs) }

/-! A latched flag says of its letters what they are as a subsequence of the bytes scanned so far. -/

theorem escEAfter_subsequence (bs : List Byte) (b : Byte) :
    escEAfter b (decide ([escByteE].Sublist bs)) = decide ([escByteE].Sublist (bs ++ [b])) := by
  have h := concat_sublist_concat (l := []) (m := bs) (x := escByteE) (b := b)
  rw [Bool.eq_iff_iff]
  simpa [escEAfter] using h.symm

theorem escNAfter_subsequence (bs : List Byte) (b : Byte) :
    escNAfter b (decide ([escByteE].Sublist bs)) (decide ([escByteE, escByteN].Sublist bs)) =
      decide ([escByteE, escByteN].Sublist (bs ++ [b])) := by
  have h := concat_sublist_concat (l := [escByteE]) (m := bs) (x := escByteN) (b := b)
  rw [Bool.eq_iff_iff]
  simpa [escNAfter] using h.symm

theorem escDAfter_subsequence (bs : List Byte) (b : Byte) :
    escDAfter b (decide ([escByteE, escByteN].Sublist bs)) (decide ([escByteE, escByteN, escByteD].Sublist bs)) =
      decide ([escByteE, escByteN, escByteD].Sublist (bs ++ [b])) := by
  have h := concat_sublist_concat (l := [escByteE, escByteN]) (m := bs) (x := escByteD) (b := b)
  rw [Bool.eq_iff_iff]
  simpa [escDAfter] using h.symm

theorem escSequence_sublist_concat {bs : List Byte} {b : Byte} : escSequence.Sublist (bs ++ [b]) ↔
    escSequence.Sublist bs ∨ (b = escByteFF ∧ [escByteE, escByteN, escByteD].Sublist bs) :=
  concat_sublist_concat (l := [escByteE, escByteN, escByteD])

/-- Scanning one byte more latches the flags once more. -/
theorem scannedAll_concat (bs : List Byte) (b : Byte) (rest rest' : List Item) (s : State) :
    { scannedAll bs rest' s with
      sched := rest, tx := (scannedAll bs rest' s).tx ++ [b], tcnt := 0
      escE := escEAfter b (scannedAll bs rest' s).escE
      escN := escNAfter b (scannedAll bs rest' s).escE (scannedAll bs rest' s).escN
      escD := escDAfter b (scannedAll bs rest' s).escN (scannedAll bs rest' s).escD } =
    scannedAll (bs ++ [b]) rest s := by
  simp only [scannedAll, escEAfter_subsequence, escNAfter_subsequence, escDAfter_subsequence, List.append_assoc,
    List.append_ne_nil_of_right_ne_nil bs (List.cons_ne_nil b []), if_false]

/-- As long as the escape sequence is no subsequence, every reception scans its byte. -/
theorem run_scannedAll {s : State} {bs : List Byte} (rest : List Item) (hs : s.sync = false) (hE : s.escE = false)
    (hN : s.escN = false) (hD : s.escD = false) (hsched : s.sched = receptions bs ++ rest)
    (hno : ¬ escSequence.Sublist bs) :
    Host.Core.run Sys2Proof.core bs.length s = .next (scannedAll bs rest s) := by
  induction bs using list_concat_induction generalizing rest with
  | nil =>
    have : scannedAll [] rest s = s := by
      cases s
      simp_all [scannedAll, receptions]
    rw [this]
    rfl
  | concat bs b ih =>
    rw [escSequence_sublist_concat, not_or] at hno
    rw [receptions_concat] at hsched
    rw [List.length_append]
    have hstep := step_rx_of_scan (s := scannedAll bs (.event (.rx b) :: rest) s) rfl hs
      (by simpa [scannedAll] using hno.2)
    exact run_concat (ih _ hsched hno.1) (hstep.trans (congrArg _ (scannedAll_concat ..)))

/-- Settles O21: by induction over the bytes the flags say which beginnings of the sequence are subsequences so far, so
that the byte 0xFF finds `esc_d` set exactly if it completes the sequence. -/
theorem escapeIsRecognizedAsASubsequence : Obligations.EscapeIsRecognizedAsASubsequence := by
  unfold Obligations.EscapeIsRecognizedAsASubsequence
  intro s bs rest hs hE hN hD hsched
  constructor
  · intro hno
    exact ⟨_, run_scannedAll rest hs hE hN hD hsched hno, rfl⟩
  · rintro pre rfl hpre hno
    rw [List.length_append]
    have hsched' : s.sched = receptions pre ++ .event (.rx escByteFF) :: rest :=
      hsched.trans (receptions_concat pre escByteFF rest)
    have hstep := step_rx_of_resync (s := scannedAll pre (.event (.rx escByteFF) :: rest) s) rfl hs
      (decide_eq_true hpre)
    refine run_concat (run_scannedAll _ hs hE hN hD hsched' hno) (hstep.trans ?_)
    simp [resync_eq, scannedAll]

end Machine

end Sys2Proof

/-! Proofs about the dispatch of a frame: the checksum, the padding, and the reception of a whole frame. -/

namespace Sys2Proof

/-- A frame passes exactly if the exclusive-or of its bytes 1 to 9 is 0 (spec/41_dispatch.md R94). -/
theorem Frame.chkOk_iff_xor_eq_zero (f : Frame) : f.chkOk = true ↔ f.checksum ^^^ f.chk = 0#8 :=
  f.chkOk_iff.trans BitVec.xor_eq_zero_iff.symm

namespace Machine

/-- Settles O30: the checksum is an exclusive-or, so it commutes, and a good frame's bytes 1 to 9 cancel in the error
pattern. -/
theorem checksumIsTheXorOfBytes1To8 : Obligations.ChecksumIsTheXorOfBytes1To8 := by
  unfold Obligations.ChecksumIsTheXorOfBytes1To8
  refine ⟨fun _ => rfl, Frame.chkOk_iff_xor_eq_zero, fun _ _ _ _ _ _ _ => rfl, fun f => ?_, fun f g hf => ?_,
    fun _ => rfl⟩
  · simp only [Frame.checksum, BitVec.xor_comm f.pos2]
  · have hsplit : (f.pos1 ^^^ g.pos1) ^^^ (f.pos2 ^^^ g.pos2) ^^^ (f.pos3 ^^^ g.pos3) ^^^ (f.pos4 ^^^ g.pos4) ^^^
        (f.pos5 ^^^ g.pos5) ^^^ (f.pos6 ^^^ g.pos6) ^^^ (f.sw ^^^ g.sw) ^^^ (f.rsv ^^^ g.rsv) ^^^ (f.chk ^^^ g.chk) =
        (f.checksum ^^^ f.chk) ^^^ (g.checksum ^^^ g.chk) := by
      simp only [Frame.checksum]
      ac_rfl
    rw [hsplit, f.chkOk_iff_xor_eq_zero.mp hf, BitVec.zero_xor]
    exact g.chkOk_iff_xor_eq_zero

/-! Padding: bytes 10 to 13 of a frame (spec/30_encoding.md R69). -/

/-- Two buffers that read the same at addresses 0 to 9 make frames that differ in their padding only. -/
theorem frameOf_of_eq_below_padding {s : State} {m : Memory} (h : ∀ a, a ≤ 9 → m.read a = s.buf.read a) :
    frameOf { s with buf := m } = { frameOf s with
      pad0 := bufAt { s with buf := m } 10, pad1 := bufAt { s with buf := m } 11
      pad2 := bufAt { s with buf := m } 12, pad3 := bufAt { s with buf := m } 13 } := by
  have hcell (a : Nat) (ha : a ≤ 9) : bufAt { s with buf := m } a = bufAt s a := by rw [bufAt, bufAt, h a ha]
  simp [frameOf, hcell]

/-- A dispatch reads no padding of its frame and no cell of the buffer. -/
theorem dispatchFrame_padding (f : Frame) (p0 p1 p2 p3 : Byte) (m : Memory) (s : State) :
    dispatchFrame { f with pad0 := p0, pad1 := p1, pad2 := p2, pad3 := p3 } { s with buf := m } =
      { dispatchFrame f s with buf := m } := by
  rcases dispatchFrame_cases f s with ⟨h, e⟩ | ⟨hm, hs, hc, e⟩ | ⟨hm, hs, hc, e⟩ <;> rw [e]
  · exact dispatchFrame_of_framing (s := { s with buf := m }) h
  · exact dispatchFrame_of_checksum (s := { s with buf := m }) hm hs hc
  · exact dispatchFrame_of_good (s := { s with buf := m }) hm hs hc

/-- An outcome whose condition and effect do not depend on the buffer passes another buffer through. -/
theorem whenEnabled_withBuf {mn : String} {c : Bool} {u t : State} (m : Memory)
    (h : whenEnabled mn c (.next u) = .next t) :
    whenEnabled mn c (.next { u with buf := m }) = .next { t with buf := m } := by
  obtain ⟨hc, e⟩ := whenEnabled_eq_next.mp h
  cases e
  exact whenEnabled_eq_next.mpr ⟨hc, rfl⟩

/-- Settles O28: the tests and the effects of a dispatch, and the checksum, read fields of the frame other than its
padding, and these are the same in both buffers. -/
theorem paddingIsNeverRead : Obligations.PaddingIsNeverRead := by
  unfold Obligations.PaddingIsNeverRead
  intro s t m i hi h hx
  have hframe := frameOf_of_eq_below_padding h
  rcases hi with rfl | rfl | rfl | rfl | rfl
  · obtain ⟨he, rfl⟩ := exec_dispatch_eq_next.mp hx
    refine exec_dispatch_eq_next.mpr ⟨he, ?_⟩
    rw [hframe]
    exact (dispatchFrame_padding _ _ _ _ _ m s).symm
  · rw [exec, execDispS, hframe]
    exact (whenEnabled_withBuf m hx :)
  · rw [exec, execDispK, hframe]
    exact (whenEnabled_withBuf m hx :)
  · rw [exec, execDispG, hframe]
    exact (whenEnabled_withBuf m hx :)
  · cases hx
    rw [exec, execChk, hframe]
    rfl

/-! The reception of a whole frame. -/

/-- The step of a byte that is stored: echo, timer reset, the store at the frame index and the advance. -/
theorem step_rx_of_free {s : State} {b : Byte} {rest : List Item} (h : s.sched = .event (.rx b) :: rest)
    (hs : s.sync = true) (hx : s.idx.val ≤ 13) :
    step s = .next { s with
      sched := rest, tx := s.tx ++ [b], tcnt := 0
      buf := s.buf.write s.idx.val b
      idx := idxSucc s.idx
      ready := readyAfter (idxSucc s.idx) s.ready } := by
  rw [step_rx h, exec_rx_of_free (s := { s with sched := rest }) hs hx,
    append_of_le (s := { s with sched := rest }) b hx]
  rfl

theorem bufAt_of_write_same {s t : State} {k : Nat} {b : Byte} (hb : t.buf = s.buf.write k b) : bufAt t k = b := by
  rw [bufAt, hb, read_write_same, Option.getD_some]

/-- State `t` is what a byte string received while Synchronized from frame index 0 on makes of `s`: each byte is echoed
and stands in its cell, the fourteenth sets `ready`, and no other field of the spec's state changes. -/
structure Received (bs : List Byte) (rest : List Item) (s t : State) : Prop where
  idx_eq : t.idx.val = bs.length
  cell_eq : ∀ k (h : k < bs.length), bufAt t k = bs[k]
  full_ready : t.idx = 14 → t.ready = true
  frame : t = { s with
    sched := rest, tx := s.tx ++ bs, tcnt := t.tcnt, buf := t.buf, idx := t.idx, ready := t.ready }

theorem received_nil {s : State} {rest : List Item} (hx : s.idx = 0) (hsched : s.sched = rest) :
    Received [] rest s s where
  idx_eq := by rw [hx]; rfl
  cell_eq _ h := absurd h (Nat.not_lt_zero _)
  full_ready h := by rw [hx] at h; cases h
  frame := by rw [← hsched, List.append_nil]

/-- One byte more is stored behind the bytes received so far. -/
theorem Received.concat {bs : List Byte} {b : Byte} {rest rest' : List Item} {s t : State} (h : Received bs rest' s t)
    (hlen : bs.length < 14) :
    Received (bs ++ [b]) rest s { t with
      sched := rest, tx := t.tx ++ [b], tcnt := 0
      buf := t.buf.write t.idx.val b
      idx := idxSucc t.idx
      ready := readyAfter (idxSucc t.idx) t.ready } where
  idx_eq := by
    rw [List.length_append, ← h.idx_eq]
    exact idxSucc_of_lt (by rw [h.idx_eq]; omega)
  cell_eq k hk := by
    by_cases hlast : k = bs.length
    · subst hlast
      rw [List.getElem_concat_length rfl, ← h.idx_eq]
      exact bufAt_of_write_same rfl
    · have hlt : k < bs.length := by
        rw [List.length_append, List.length_singleton] at hk
        omega
      rw [List.getElem_append_left hlt, ← h.cell_eq k hlt]
      exact bufAt_of_write_other rfl rfl (by rwa [h.idx_eq])
  full_ready he := by simpa [readyAfter] using .inr he
  frame := by rw [h.frame, List.append_assoc]

theorem run_receptions {s : State} {bs : List Byte} (rest : List Item) (hs : s.sync = true) (hx : s.idx = 0)
    (hlen : bs.length ≤ 14) (hsched : s.sched = receptions bs ++ rest) :
    ∃ t, Host.Core.run Sys2Proof.core bs.length s = .next t ∧ Received bs rest s t := by
  induction bs using list_concat_induction generalizing rest with
  | nil => exact ⟨s, run_zero s, received_nil hx hsched⟩
  | concat bs b ih =>
    rw [receptions_concat] at hsched
    rw [List.length_append, List.length_singleton] at hlen ⊢
    obtain ⟨t, hrun, ht⟩ := ih _ (by omega) hsched
    have htsched : t.sched = .event (.rx b) :: rest := by rw [ht.frame]
    have htsync : t.sync = true := by rw [ht.frame]; exact hs
    have hfree : t.idx.val ≤ 13 := by rw [ht.idx_eq]; omega
    exact ⟨_, run_concat hrun (step_rx_of_free htsched htsync hfree), ht.concat hlen⟩

theorem bufBytes_eq_map_range (s : State) : bufBytes s = (List.range 14).map (bufAt s) := rfl

theorem frameOf_eq_of_cells {s : State} {f : Frame} (h : ∀ k (hk : k < f.bytes.length), bufAt s k = f.bytes[k]) :
    frameOf s = f := by
  refine Frame.bytes_injective (List.ext_getElem rfl fun k _ hk => ?_)
  simp only [← bufBytes_eq_frame_bytes, bufBytes_eq_map_range, List.getElem_map, List.getElem_range, h k hk]

/-- A complete frame is dispatched by the next main step, unless the fail-safe flag is set. -/
theorem mainStep_eq_dispatch {s : State} (pick : MainChoice) (hm : s.mphase = .run) (hr : s.ready = true)
    (hf : s.fail = false) : mainStep pick s = .dispatch := by
  simp [mainStep, recIterEnabled, recExitEnabled, recEnterEnabled, dispatchEnabled, hm, hr, hf]

/-- The step of the main sequencer that dispatches the frame in the buffer. -/
theorem step_main_of_dispatch {s : State} {pick : MainChoice} {rest : List Item}
    (h : s.sched = .event (.main pick) :: rest) (hm : s.mphase = .run) (hr : s.ready = true) (hf : s.fail = false) :
    step s = .next (dispatchFrame (frameOf s) { s with sched := rest }) := by
  rw [step_of_fetch h (fetch_dispatch (mainStep_eq_dispatch pick hm hr hf))]
  exact exec_decodeFrame (s := { s with sched := rest }) (dispatchEnabled_iff.mpr ⟨hm, hr, .inl hf⟩) (frameOf s)

/-- Whatever the outcome of a dispatch is, the frame is consumed, and the buffer, the applied values, the phase, `fail`
and `ovr` are left (spec/41_dispatch.md R95). -/
theorem dispatchFrame_frame (f : Frame) (s : State) : dispatchFrame f s = { s with
    idx := 0, ready := false, tcnt := 0
    tx := (dispatchFrame f s).tx, sync := (dispatchFrame f s).sync, pw := (dispatchFrame f s).pw
    doutA := (dispatchFrame f s).doutA, doutB := (dispatchFrame f s).doutB
    escE := (dispatchFrame f s).escE, escN := (dispatchFrame f s).escN, escD := (dispatchFrame f s).escD } := by
  rcases dispatchFrame_cases f s with ⟨-, e⟩ | ⟨-, -, -, e⟩ | ⟨-, -, -, e⟩ <;> rw [e] <;> rfl

/-- While Synchronized the marker and the checksum decide which acknowledgement is sent and what becomes of the link,
the channels and the outputs (spec/41_dispatch.md R90). -/
theorem dispatchFrame_answers (f : Frame) (s : State) (hs : s.sync = true) :
    let t := dispatchFrame f s
    (f.marker ≠ marker → t.tx = s.tx ++ [nakSync] ∧ t.sync = false ∧
      t.pw = s.pw ∧ t.doutA = s.doutA ∧ t.doutB = s.doutB) ∧
    (f.marker = marker → f.checksum ≠ f.chk → t.tx = s.tx ++ [nakChk] ∧ t.sync = true ∧
      t.pw = s.pw ∧ t.doutA = s.doutA ∧ t.doutB = s.doutB) ∧
    (f.marker = marker → f.checksum = f.chk → t.tx = s.tx ++ [ackOk] ∧ t.sync = true ∧
      (∀ c, t.pw.get c = s.cfg.minPulse - mapOffset (f.pos c)) ∧
      t.doutA = f.sw.getLsbD 6 ∧ t.doutB = f.sw.getLsbD 7) := by
  refine ⟨fun hm => ?_, fun hm hc => ?_, fun hm hc => ?_⟩
  · rw [dispatchFrame_of_framing (.inl (f.markerOk_false_iff.mpr hm))]
    exact ⟨rfl, rfl, rfl, rfl, rfl⟩
  · rw [dispatchFrame_of_checksum (f.markerOk_iff.mpr hm) hs (f.chkOk_false_iff.mpr hc)]
    exact ⟨rfl, hs, rfl, rfl, rfl⟩
  · rw [dispatchFrame_of_good (f.markerOk_iff.mpr hm) hs (f.chkOk_iff.mpr hc)]
    exact ⟨rfl, hs, acceptFrame_pw_get f s, switchA_eq_bit f.sw, switchB_eq_bit f.sw⟩

/-- Settles O47: the fourteen receptions leave the frame in the buffer with `ready` set, and the main step dispatches it
with one of the three outcomes. -/
theorem frameIsReceivedAndAnswered : Obligations.FrameIsReceivedAndAnswered := by
  unfold Obligations.FrameIsReceivedAndAnswered
  intro s f p rest hs hx hr hf hm hsched
  obtain ⟨t, hrun, ht⟩ := run_receptions (bs := f.bytes) (.event (.main p) :: rest) hs hx (Nat.le_refl 14) hsched
  have hframe : frameOf t = f := frameOf_eq_of_cells ht.cell_eq
  have hstep := step_main_of_dispatch (s := t) (by rw [ht.frame]) (by rw [ht.frame]; exact hm)
    (ht.full_ready (Fin.ext ht.idx_eq)) (by rw [ht.frame]; exact hf)
  rw [hframe, dispatchFrame_frame] at hstep
  obtain ⟨n, m, x, r, rfl⟩ : ∃ n m x r, t = { s with
      sched := .event (.main p) :: rest, tx := s.tx ++ f.bytes, tcnt := n, buf := m, idx := x, ready := r } :=
    ⟨_, _, _, _, ht.frame⟩
  exact ⟨_, run_concat hrun hstep, hframe, rfl, rfl, rfl, rfl, rfl, rfl, hf, hm, dispatchFrame_answers f _ hs⟩

end Machine

end Sys2Proof

/-! Proofs about the step as a whole: every event completes, and a placed table word is what the next step runs. -/

namespace Sys2Proof

namespace Machine

theorem exec_rx_completes (b : Byte) (s : State) : ∃ t, exec (.rx b) s = .next t := by
  by_cases hs : s.sync = true
  · by_cases hx : s.idx.val ≤ 13
    · exact ⟨_, (exec_rx_of_free hs hx).trans (append_of_le b hx)⟩
    · exact ⟨_, exec_rx_of_full hs (by omega)⟩
  · exact ⟨_, exec_rx_of_searching (by simpa using hs)⟩

/-- Below the range of `tcnt` one of the two timer operations is enabled (spec/10_state.md R20). -/
theorem runEvent_tick_completes {s : State} (h : s.tcnt < s.cfg.tTimeout) : ∃ t, runEvent .tick s = .next t := by
  rcases Nat.lt_or_eq_of_le (Nat.succ_le_of_lt h) with hlt | heq
  · rw [runEvent_of_fetch (fetch_tick_of_lt hlt)]
    exact ⟨_, whenEnabled_eq_next.mpr ⟨tickEnabled_iff.mpr hlt, rfl⟩⟩
  · rw [runEvent_of_fetch (fetch_tick_of_not_lt (by omega))]
    exact ⟨_, whenEnabled_eq_next.mpr ⟨beq_iff_eq.mpr heq, rfl⟩⟩

/-- The enabling condition of each step of the main sequencer (spec/43_watchdog.md R115). -/
def MainStep.enabled : MainStep → State → Bool
  | .dispatch => dispatchEnabled
  | .enter => recEnterEnabled
  | .iter => recIterEnabled
  | .exit => recExitEnabled
  | .idle => idleEnabled

/-- The main sequencer is idle exactly when it has nothing else to do: `MAIN_PRIORITY` never disables both the recovery
entry and the dispatch. -/
theorem idleEnabled_of_none_enabled {s : State} (hiter : ¬ recIterEnabled s = true) (hexit : ¬ recExitEnabled s = true)
    (henter : ¬ recEnterEnabled s = true) (hdispatch : ¬ dispatchEnabled s = true) : idleEnabled s = true := by
  rw [recIterEnabled_iff] at hiter
  rw [recExitEnabled_iff] at hexit
  rw [recEnterEnabled_iff] at henter
  rw [dispatchEnabled_iff] at hdispatch
  cases hm : s.mphase with
  | recovery =>
    cases hf : s.fail with
    | false => exact absurd ⟨hm, hf⟩ hexit
    | true => exact absurd ⟨hm, hf⟩ hiter
  | run =>
    cases hr : s.ready with
    | false =>
      have hf : s.fail = false := Bool.eq_false_iff.mpr fun hf => henter ⟨hm, hf, .inl hr⟩
      simp [idleEnabled, hm, hf, hr]
    | true =>
      have hp : s.cfg.priority = .failFirst := Decidable.byContradiction fun hp => hdispatch ⟨hm, hr, .inr hp⟩
      have hf : s.fail = true := (Bool.not_eq_false _).mp fun hf => hdispatch ⟨hm, hr, .inl hf⟩
      exact absurd ⟨hm, hf, .inr (by simp [hp])⟩ henter

theorem mainStep_enabled (pick : MainChoice) (s : State) : (mainStep pick s).enabled s = true := by
  unfold mainStep
  split
  next hiter => exact hiter
  next hiter =>
    split
    next hexit => exact hexit
    next hexit =>
      split
      next hboth =>
        rw [Bool.and_eq_true] at hboth
        cases pick with
        | enterFirst => exact hboth.2
        | dispatchFirst => exact hboth.1
      next =>
        split
        next henter => exact henter
        next henter =>
          split
          next hdispatch => exact hdispatch
          next hdispatch => exact idleEnabled_of_none_enabled hiter hexit henter hdispatch

theorem runEvent_main_completes (pick : MainChoice) (s : State) : ∃ t, runEvent (.main pick) s = .next t := by
  have henabled := mainStep_enabled pick s
  cases hm : mainStep pick s with
  | dispatch =>
    rw [hm] at henabled
    rw [runEvent_of_fetch (fetch_dispatch hm)]
    exact ⟨_, exec_decodeFrame henabled _⟩
  | enter | iter | exit | idle =>
    rw [hm] at henabled
    rw [runEvent_of_fetch (fetch_main (by simp [hm])), hm]
    exact ⟨_, whenEnabled_eq_next.mpr ⟨henabled, rfl⟩⟩

/-- Of the invariant, an event needs the range of `tcnt` only. -/
theorem runEvent_completes (e : Event) {s : State} (h : s.tcnt < s.cfg.tTimeout) : ∃ t, runEvent e s = .next t := by
  cases e with
  | rx b =>
    rw [runEvent_of_fetch (fetch_rx b s), exec_decodeByteIn]
    exact exec_rx_completes b s
  | tick => exact runEvent_tick_completes h
  | main pick => exact runEvent_main_completes pick s
  | period c => exact ⟨_, rfl⟩
  | reset => exact ⟨_, rfl⟩

/-- Settles O7: the environment's event and a listed one both run in a state with the same timer, in which the operation
that the event fires is enabled. -/
theorem everyEventCompletes : Obligations.EveryEventCompletes := by
  unfold Obligations.EveryEventCompletes
  rintro s h (hs | ⟨e, rest, hs⟩)
  · rw [step_of_nil hs]
    exact runEvent_completes _ h.tcnt_lt
  · rw [step_of_event hs]
    exact runEvent_completes e h.tcnt_lt

/-! Placed table words (assumption 13). -/

theorem bytesOfNat_one (w : Nat) : bytesOfNat 1 w = [BitVec.ofNat 8 w] := by simp [bytesOfNat]

/-- The buffer of a placed frame holds the bytes of the word. -/
theorem frameOf_placeWord_bytes (w : Nat) (s : State) :
    (frameOf (placeWord .frame14 w s)).bytes = bytesOfNat frameLen w := rfl

theorem step_placeWord_frame14 (w : Nat) (s : State) :
    step (placeWord .frame14 w s) =
      exec (decodeFrame true (frameOf (placeWord .frame14 w s))) { placeWord .frame14 w s with sched := s.sched } :=
  step_of_fetch rfl (fetch_dispatch (mainStep_eq_dispatch .dispatchFirst rfl rfl rfl))

/-- While Searching the frame index does not select the row of a byte, so `tableCtx` may leave it open. -/
theorem step_placeWord_byteIn (w : Nat) (s : State) :
    step (placeWord .byteIn w s) =
      exec (decodeByteIn (tableCtx .byteIn) (BitVec.ofNat 8 w)) { placeWord .byteIn w s with sched := s.sched } :=
  step_of_fetch rfl (fetch_rx _ _)

theorem step_placeWord_byteOut (w : Nat) (s : State) :
    step (placeWord .byteOut w s) =
      exec (decodeByteOut (BitVec.ofNat 8 w)) { placeWord .byteOut w s with sched := s.sched } :=
  step_of_op rfl

/-- What the decoder reads from the bytes of a word, the step runs once the word is placed. -/
theorem step_placeWord {fmt : Format} {w : Nat} {i : Instr} {rest : List Byte} (s : State)
    (h : decode (tableCtx fmt) fmt (bytesOfNat fmt.length w) = .ok (i, rest)) :
    step (placeWord fmt w s) = exec i { placeWord fmt w s with sched := s.sched } := by
  cases fmt with
  | frame14 =>
    rw [step_placeWord_frame14]
    have hd := decode_frame_bytes (tableCtx .frame14) (frameOf (placeWord .frame14 w s)) []
    rw [List.append_nil, frameOf_placeWord_bytes] at hd
    cases hd.symm.trans h
    rfl
  | byteIn =>
    rw [Format.length, bytesOfNat_one, decode_byteIn_cons] at h
    cases h
    exact step_placeWord_byteIn w s
  | byteOut =>
    rw [Format.length, bytesOfNat_one, decode_byteOut_cons] at h
    cases h
    exact step_placeWord_byteOut w s
  | event => cases h

theorem decodeTableWord_eq_some {nbits w : Nat} {i : Instr} (h : decodeTableWord nbits w = some i) :
    ∃ fmt rest, tableFormat nbits w = some fmt ∧
      decode (tableCtx fmt) fmt (bytesOfNat fmt.length w) = .ok (i, rest) := by
  unfold decodeTableWord at h
  split at h
  · cases h
  · split at h
    · cases h
      exact ⟨_, _, ‹_›, ‹_›⟩
    · cases h

/-- Settles O6: the word is placed in the format it is decoded in, and the placed state is in the link state that the
decoder reads the word in. -/
theorem placedTableWordRunsNext : Obligations.PlacedTableWordRunsNext := by
  unfold Obligations.PlacedTableWordRunsNext
  intro s nbits w i h
  obtain ⟨fmt, rest, hfmt, hdec⟩ := decodeTableWord_eq_some h
  have hplace : s.withFetchWord nbits w = placeWord fmt w s := by rw [State.withFetchWord, hfmt]
  rw [hplace]
  exact step_placeWord s hdec

end Machine

end Sys2Proof

/-! Proofs about the frame synchronization: the four operations of the reception, the recognizer as a counter, the rows
that are disabled, and the operating modes. -/

namespace Sys2Proof

namespace Machine

section
variable {s : State} {b : Byte}

/-! The enabling conditions of the receptions while Searching, and of the rows without an `↔` so far. -/

theorem scanEnabled_iff : scanEnabled b s = true ↔ s.sync = false ∧ ¬(s.escD = true ∧ b = escByteFF) := by
  rw [← completesEscape_iff]
  simp [scanEnabled]

theorem resyncEnabled_iff : resyncEnabled s = true ↔ s.sync = false ∧ s.escD = true := by simp [resyncEnabled]

theorem idleEnabled_iff : idleEnabled s = true ↔ s.mphase = .run ∧ s.fail = false ∧ s.ready = false := by
  simp [idleEnabled, and_assoc]

theorem expireEnabled_iff : expireEnabled s = true ↔ s.tcnt + 1 = s.cfg.tTimeout := by simp [expireEnabled]

theorem noiseSelected_iff : noiseSelected b s = true ↔ s.sync = false ∧ b ≠ escByteE ∧ ¬(b = escByteN ∧ s.escE = true) ∧
    ¬(b = escByteD ∧ s.escN = true) ∧ ¬(b = escByteFF ∧ s.escD = true) := by
  simp only [noiseSelected, Bool.and_eq_true, Bool.not_eq_true', Bool.and_eq_false_iff, beq_eq_false_iff_ne, bne_iff_ne,
    Decidable.not_and_iff_not_or_not, Bool.not_eq_true, and_assoc]

/-! A byte received while Searching is scanned or resynchronizes, under the name of its operation (spec/40_framesync.md
R83, R84). -/

theorem exec_rxScan_of_not_ff (hs : s.sync = false) (h : ¬(s.escD = true ∧ b = escByteFF)) :
    exec (.rxScan b) s = .next (search b s) := by
  have hc : completesEscape b s.escD = false := Bool.eq_false_iff.mpr (mt completesEscape_iff.mp h)
  rw [exec, execRxScan, scanEnabled_iff.mpr ⟨hs, h⟩, whenEnabled_true, search_of_not_completes hc]

theorem exec_rxResync_of_progress (hs : s.sync = false) (hd : s.escD = true) :
    exec .rxResync s = .next (resync s) := by
  rw [exec, execRxResync, resyncEnabled_iff.mpr ⟨hs, hd⟩, whenEnabled_true]

end

/-- Whatever it does besides, a reception echoes its byte and resets the timer (spec/40_framesync.md R80). -/
theorem exec_rx_echoes (b : Byte) (s : State) : ∃ t, exec (.rx b) s = .next t ∧ t.tx = s.tx ++ [b] ∧ t.tcnt = 0 := by
  cases hs : s.sync with
  | true =>
    by_cases hx : s.idx.val ≤ 13
    · exact ⟨_, (exec_rx_of_free hs hx).trans (append_of_le b hx), rfl, rfl⟩
    · exact ⟨_, exec_rx_of_full hs (by omega), rfl, rfl⟩
  | false =>
    refine ⟨_, exec_rx_of_searching hs, ?_⟩
    cases hc : completesEscape b s.escD with
    | false =>
      rw [search_of_not_completes hc]
      exact ⟨rfl, rfl⟩
    | true =>
      rw [search_of_completes hc, (completesEscape_iff.mp hc).2]
      exact ⟨rfl, rfl⟩

/-- Settles O11: the link state selects the operation, and each of the four echoes the byte and resets the timer. -/
theorem receptionIsOneOfFourOperations : Obligations.ReceptionIsOneOfFourOperations := by
  unfold Obligations.ReceptionIsOneOfFourOperations
  refine fun s b => ⟨fun hs hx => ?_, fun hs hx => ?_, fun hs h => ?_, fun hs ⟨hd, hb⟩ => ?_, exec_rx_echoes b s⟩
  · rw [exec_rx_of_free hs hx, exec_rxAppend_of_free hs hx]
  · rw [exec_rx_of_full hs hx, exec_rxOvr_of_full hs hx]
  · rw [exec_rx_of_searching hs, exec_rxScan_of_not_ff hs h]
  · rw [exec_rx_of_searching hs, exec_rxResync_of_progress hs hd,
      search_of_completes (completesEscape_iff.mpr ⟨hd, hb⟩)]

/-! The recognizer as a counter (spec/40_framesync.md R85). -/

/-- Progress flags that are set in the order E, N, D are a count, and scanning a byte moves it to the next number
exactly if the byte is the letter that is next. -/
theorem progress_after_scan {e n d : Bool} (hdn : d = true → n = true) (hne : n = true → e = true) (b : Byte) :
    (escEAfter b e).toNat + (escNAfter b e n).toNat + (escDAfter b n d).toNat =
      progressAfter (e.toNat + n.toNat + d.toNat) b := by
  cases d with
  | true =>
    obtain rfl := hdn rfl
    obtain rfl := hne rfl
    simp [escEAfter, escNAfter, escDAfter, progressAfter]
  | false =>
    cases n with
    | true =>
      obtain rfl := hne rfl
      by_cases hb : b = escByteD <;> simp [escEAfter, escNAfter, escDAfter, progressAfter, hb]
    | false =>
      cases e with
      | true => by_cases hb : b = escByteN <;> simp [escEAfter, escNAfter, escDAfter, progressAfter, hb]
      | false => by_cases hb : b = escByteE <;> simp [escEAfter, escNAfter, escDAfter, progressAfter, hb]

/-- The count is 3 exactly if the last letter has been seen, since the flags are set in order. -/
theorem Inv.escProgress_eq_three_iff {s : State} (h : Inv s) : escProgress s = 3 ↔ s.escD = true := by
  constructor
  · intro hp
    refine Decidable.byContradiction fun hd => ?_
    have hE := s.escE.toNat_le
    have hN := s.escN.toNat_le
    simp only [escProgress, Bool.eq_false_iff.mpr hd, Bool.toNat_false] at hp
    omega
  · intro hd
    simp [escProgress, hd, h.esc_d_n hd, h.esc_n_e (h.esc_d_n hd)]

/-- Settles O20: at count 3 the byte 0xFF resynchronizes, and every other reception scans its byte. -/
theorem recognizerIsACounter : Obligations.RecognizerIsACounter := by
  unfold Obligations.RecognizerIsACounter
  intro s t b h hs hx
  rw [exec_rx_of_searching hs] at hx
  cases hx
  rw [h.escProgress_eq_three_iff]
  refine ⟨fun hc => ?_, fun hc => ?_⟩
  · rw [search_of_completes (completesEscape_iff.mpr hc)]
    exact ⟨rfl, rfl⟩
  · rw [search_of_not_ff hs (mt And.symm hc)]
    exact ⟨hs, progress_after_scan h.esc_d_n h.esc_n_e b⟩

/-! The operating modes, as the phase and the flags they name (spec/60_exceptions.md R133). -/

section
variable {s : State}

theorem modeOf_of_recovery (hm : s.mphase = .recovery) : modeOf s = .recovery := by simp [modeOf, hm]

theorem modeOf_of_tripped (hm : s.mphase = .run) (hf : s.fail = true) : modeOf s = .tripped := by simp [modeOf, hm, hf]

theorem modeOf_of_normal (hm : s.mphase = .run) (hf : s.fail = false) (hs : s.sync = true) : modeOf s = .normal := by
  simp [modeOf, hm, hf, hs]

theorem modeOf_of_searching (hm : s.mphase = .run) (hf : s.fail = false) (hs : s.sync = false) :
    modeOf s = .searching := by
  simp [modeOf, hm, hf, hs]

theorem modeOf_eq_of_recovery {t : State} (ht : t.mphase = .recovery) (hs : s.mphase = .recovery) :
    modeOf t = modeOf s :=
  (modeOf_of_recovery ht).trans (modeOf_of_recovery hs).symm

theorem modeOf_congr {t : State} (hm : t.mphase = s.mphase) (hf : t.fail = s.fail) (hs : t.sync = s.sync) :
    modeOf t = modeOf s := by
  simp [modeOf, hm, hf, hs]

end

/-! The four operations that change the mode. Each keeps it or moves it as spec/60_exceptions.md R133 draws it. -/

section
variable {s : State}

theorem modeOf_rejectFraming (hm : s.mphase = .run) :
    modeOf (rejectFraming s) = modeOf s ∨ (modeOf s = .normal ∧ modeOf (rejectFraming s) = .searching) := by
  cases hs : s.sync with
  | false => exact .inl (modeOf_congr rfl rfl hs.symm)
  | true =>
    cases hf : s.fail with
    | false => exact .inr ⟨modeOf_of_normal hm hf hs, modeOf_of_searching hm hf rfl⟩
    | true =>
      have ht : modeOf (rejectFraming s) = .tripped := modeOf_of_tripped hm hf
      exact .inl (ht.trans (modeOf_of_tripped hm hf).symm)

theorem modeOf_expire : modeOf (expire s) = modeOf s ∨
    ((modeOf s = .normal ∨ modeOf s = .searching) ∧ modeOf (expire s) = .tripped) := by
  cases hm : s.mphase with
  | recovery => exact .inl (modeOf_eq_of_recovery hm hm)
  | run =>
    cases hf : s.fail with
    | true => exact .inl (modeOf_congr rfl hf.symm rfl)
    | false =>
      refine .inr ⟨?_, modeOf_of_tripped hm rfl⟩
      cases hs : s.sync with
      | true => exact .inl (modeOf_of_normal hm hf hs)
      | false => exact .inr (modeOf_of_searching hm hf hs)

theorem modeOf_resync (hs : s.sync = false) : modeOf (resync s) = modeOf s ∨
    ((modeOf s = .searching ∨ modeOf s = .tripped) ∧ modeOf (resync s) = .normal) := by
  cases hm : s.mphase with
  | recovery => exact .inl (modeOf_eq_of_recovery hm hm)
  | run =>
    refine .inr ⟨?_, modeOf_of_normal hm rfl rfl⟩
    cases hf : s.fail with
    | false => exact .inl (modeOf_of_searching hm hf hs)
    | true => exact .inr (modeOf_of_tripped hm hf)

theorem modeOf_recExit (hf : s.fail = false) :
    modeOf { s with mphase := .run } = .normal ∨ modeOf { s with mphase := .run } = .searching :=
  s.sync.eq_false_or_eq_true.imp (modeOf_of_normal rfl hf) (modeOf_of_searching rfl hf)

theorem modeOf_eq_recovery_iff : modeOf s = .recovery ↔ s.mphase = .recovery := by
  refine ⟨fun h => ?_, modeOf_of_recovery⟩
  refine Decidable.byContradiction fun hm => ?_
  rw [modeOf, if_neg hm] at h
  repeat' split at h
  all_goals cases h

end

/-- The phase is written by the entry and the exit of recovery and by RESET (spec/10_state.md R14). -/
theorem Effect.mphase_cases {i : Instr} {s t : State} (h : Effect i s t) (hr : i ≠ .reset) :
    t.mphase = s.mphase ∨ t.mphase = .recovery ∨ (recExitEnabled s = true ∧ t = { s with mphase := .run }) := by
  cases h with
  | enter => exact .inr (.inl rfl)
  | exit he => exact .inr (.inr ⟨he, rfl⟩)
  | reset => exact absurd rfl hr
  | _ => exact .inl rfl

/-- The recovery phase is left with `fail` cleared, and so Synchronized (spec/43_watchdog.md R114). -/
theorem Effect.normal_of_leaves_recovery {i : Instr} {s t : State} (h : Effect i s t) (hr : i ≠ .reset) (hinv : Inv s)
    (hs : modeOf s = .recovery) (ht : modeOf t ≠ .recovery) : modeOf t = .normal := by
  rw [modeOf_eq_recovery_iff] at hs
  rcases h.mphase_cases hr with hm | hm | ⟨he, rfl⟩
  · exact (ht (modeOf_of_recovery (hm.trans hs))).elim
  · exact (ht (modeOf_of_recovery hm)).elim
  · obtain ⟨-, hf⟩ := recExitEnabled_iff.mp he
    exact modeOf_of_normal rfl hf (hinv.recovered_sync hs hf)

/-- Settles O58: of the effects only the framing error, the resynchronization, the expiry, and the entry and the exit of
recovery move the mode. -/
theorem modeTransitions : Obligations.ModeTransitions := by
  unfold Obligations.ModeTransitions
  intro i s t h hr hne
  have heff := exec_effect h
  refine ⟨?_, fun hinv hs => heff.normal_of_leaves_recovery hr hinv hs (hs ▸ hne)⟩
  cases heff with
  | framing f hi he =>
    obtain ⟨hs, ht⟩ := (modeOf_rejectFraming (dispatchEnabled_iff.mp he).1).resolve_left hne
    exact .inl ⟨hs, ht, rfl, hi.imp And.left (.imp And.left fun hc => ⟨f, hc⟩)⟩
  | expire =>
    obtain ⟨hs | hs, ht⟩ := modeOf_expire.resolve_left hne
    · exact .inr (.inl ⟨hs, ht, rfl⟩)
    · exact .inr (.inr (.inr (.inl ⟨hs, ht, rfl⟩)))
  | resync hi hsync hd =>
    obtain ⟨hs | hs, ht⟩ := (modeOf_resync hsync).resolve_left hne
    · exact .inr (.inr (.inl ⟨hs, ht, hd, rfl, hi⟩))
    · exact .inr (.inr (.inr (.inr (.inr (.inl ⟨hs, ht, hsync, hd, rfl, hi⟩)))))
  | enter he =>
    obtain ⟨hm, hf, -⟩ := recEnterEnabled_iff.mp he
    exact .inr (.inr (.inr (.inr (.inl ⟨modeOf_of_tripped hm hf, modeOf_of_recovery rfl, rfl⟩))))
  | exit he =>
    obtain ⟨hm, hf⟩ := recExitEnabled_iff.mp he
    exact .inr (.inr (.inr (.inr (.inr (.inr ⟨modeOf_of_recovery hm, modeOf_recExit hf, rfl⟩)))))
  | iter he =>
    obtain ⟨hm, -⟩ := recIterEnabled_iff.mp he
    exact (hne (modeOf_eq_of_recovery hm hm)).elim
  | scan b _ hs => exact (hne (modeOf_congr rfl rfl hs.symm)).elim
  | reset => exact absurd rfl hr
  | _ => exact absurd rfl hne

/-! The effect of each reception operation. -/

/-- A store raises `ready` exactly if it fills the last cell (spec/40_framesync.md R81). -/
theorem readyAfter_idxSucc_iff {i : Fin 15} {r : Bool} (h : i.val ≤ 13) :
    readyAfter (idxSucc i) r = true ↔ r = true ∨ i.val = 13 := by
  have hlast : idxSucc i = 14 ↔ i.val = 13 := by
    rw [Fin.ext_iff, idxSucc_of_lt h]
    exact Nat.add_left_inj (n := 1)
  rw [readyAfter, Bool.or_eq_true, beq_iff_eq, hlast]

/-- Settles O14: both rows are the append, whose store is read back at its address and nowhere else. -/
theorem appendStoresOneByteAtTheIndex : Obligations.AppendStoresOneByteAtTheIndex := by
  unfold Obligations.AppendStoresOneByteAtTheIndex
  intro s b i hi hs hx
  have hexec : exec i s = append b s := by
    rcases hi with rfl | rfl
    · exact exec_rxAppend_of_free hs hx
    · exact exec_data_of_free hs hx
  refine ⟨_, hexec.trans (append_of_le b hx), read_write_same .., bufAt_of_write_same rfl, fun a ha => ?_,
    idxSucc_of_lt hx, readyAfter_idxSucc_iff hx, rfl⟩
  exact ⟨read_write_other _ b ha, bufAt_of_write_other rfl rfl ha⟩

/-- Settles O15: both rows are the overrun. -/
theorem overrunDropsTheByte : Obligations.OverrunDropsTheByte := by
  unfold Obligations.OverrunDropsTheByte
  rintro s b i (rfl | rfl) hs hx
  · rw [exec_rxOvr_of_full hs hx]
    rfl
  · rw [exec_overrun_of_full hs hx]
    rfl

/-- Settles O16: a byte that does not complete the escape sequence latches the flags. -/
theorem scanLatchesTheProgressFlags : Obligations.ScanLatchesTheProgressFlags := by
  unfold Obligations.ScanLatchesTheProgressFlags
  intro s b hs h
  rw [exec_rxScan_of_not_ff hs h, search_of_not_ff hs (mt And.symm h)]
  rfl

/-- Settles O19: the row is the return of spec/60_exceptions.md R128 and R130, whose fields `resync_eq` writes out. -/
theorem resynchronizationEffect : Obligations.ResynchronizationEffect := by
  unfold Obligations.ResynchronizationEffect
  intro s hs hd
  rw [exec_rxResync_of_progress hs hd, resync_eq]

/-! Disabled rows. -/

theorem whenEnabled_of_not {mn : String} {c : Bool} {o : Out} (h : ¬ c = true) :
    whenEnabled mn c o = .refused (.notEnabled mn) := by
  rw [Bool.eq_false_iff.mpr h, whenEnabled_false]

section
variable {s : State}

/-! The rows of a dispatch, by the outcome whose condition they have; the frame is the buffer's or the operand. -/

theorem framing_refused {mn : String} {f : Frame} {o : Out}
    (h : dispatchEnabled s = false ∨ (f.marker = marker ∧ s.sync = true)) :
    whenEnabled mn (dispatchEnabled s && (!f.markerOk || !s.sync)) o = .refused (.notEnabled mn) := by
  rcases h with he | ⟨hm, hs⟩
  · simp [he]
  · simp [f.markerOk_iff.mpr hm, hs]

theorem checksum_refused {mn : String} {f : Frame} {o : Out}
    (h : dispatchEnabled s = false ∨ s.sync = false ∨ f.marker ≠ marker ∨ f.checksum = f.chk) :
    whenEnabled mn (dispatchEnabled s && s.sync && f.markerOk && !f.chkOk) o = .refused (.notEnabled mn) := by
  rcases h with he | hs | hm | hc
  · simp [he]
  · simp [hs]
  · simp [f.markerOk_false_iff.mpr hm]
  · simp [f.chkOk_iff.mpr hc]

theorem accept_refused {mn : String} {f : Frame} {o : Out}
    (h : dispatchEnabled s = false ∨ s.sync = false ∨ f.marker ≠ marker ∨ f.checksum ≠ f.chk) :
    whenEnabled mn (dispatchEnabled s && s.sync && f.markerOk && f.chkOk) o = .refused (.notEnabled mn) := by
  rcases h with he | hs | hm | hc
  · simp [he]
  · simp [hs]
  · simp [f.markerOk_false_iff.mpr hm]
  · simp [f.chkOk_false_iff.mpr hc]

/-! The enabling conditions that name the phase, turned to their negations. -/

theorem dispatchEnabled_eq_false (h : s.mphase = .recovery ∨ s.ready = false ∨
    (s.fail = true ∧ s.cfg.priority = .failFirst)) : dispatchEnabled s = false := by
  rcases h with hm | hr | ⟨hf, hp⟩
  · simp [dispatchEnabled, hm]
  · simp [dispatchEnabled, hr]
  · simp [dispatchEnabled, hf, hp]

theorem recEnterEnabled_eq_false (h : s.mphase = .recovery ∨ s.fail = false ∨
    (s.ready = true ∧ s.cfg.priority = .readyFirst)) : recEnterEnabled s = false := by
  rcases h with hm | hf | ⟨hr, hp⟩
  · simp [recEnterEnabled, hm]
  · simp [recEnterEnabled, hf]
  · simp [recEnterEnabled, hr, hp]

end

/-- Settles O55: each row is guarded by its enabling condition, and each clause contradicts that condition. -/
theorem disabledOperationsAreRefused : Obligations.DisabledOperationsAreRefused := by
  unfold Obligations.DisabledOperationsAreRefused
  refine ⟨fun s b h => ?append, fun s b h => ?ovr, fun s b h => ?scan, fun s h => ?resync, fun s h => ?esc,
    fun s b h => ?noise, fun s h => ?dispatch, fun s h => framing_refused h, fun s h => checksum_refused h,
    fun s h => accept_refused h, fun s f h => framing_refused h, fun s f h => checksum_refused h,
    fun s f h => accept_refused h, fun s h => dispatchEnabled_eq_false h, fun s h => ?enter, fun s h => ?idle,
    fun s h => ?iter, fun s h => ?exit, fun s h => ?tick, fun s h => ?expire⟩
  case append =>
    have hn := mt appendEnabled_iff.mp h
    exact ⟨whenEnabled_of_not hn, whenEnabled_of_not hn⟩
  case ovr =>
    have hn := mt ovrEnabled_iff.mp h
    exact ⟨whenEnabled_of_not hn, whenEnabled_of_not hn⟩
  case scan =>
    refine whenEnabled_of_not (mt scanEnabled_iff.mp ?_)
    rintro ⟨hs, hc⟩
    exact h.elim (by simp [hs]) hc
  case resync =>
    refine whenEnabled_of_not (mt resyncEnabled_iff.mp ?_)
    rintro ⟨hs, hd⟩
    simp [hs, hd] at h
  case esc =>
    have hn : ¬ (!s.sync) = true := by simp [h]
    exact ⟨whenEnabled_of_not hn, whenEnabled_of_not hn, whenEnabled_of_not hn, whenEnabled_of_not hn⟩
  case noise =>
    refine whenEnabled_of_not (mt noiseSelected_iff.mp ?_)
    rintro ⟨hs, hE, hN, hD, hFF⟩
    rcases h with h | h | h | h | h
    · simp [hs] at h
    · exact hE h
    · exact hN h
    · exact hD h
    · exact hFF h
  case dispatch => exact whenEnabled_of_not (Bool.eq_false_iff.mp h)
  case enter => exact whenEnabled_of_not (Bool.eq_false_iff.mp (recEnterEnabled_eq_false h))
  case idle =>
    refine whenEnabled_of_not (mt idleEnabled_iff.mp ?_)
    rintro ⟨hm, hf, hr⟩
    simp [hm, hf, hr] at h
  case iter =>
    refine whenEnabled_of_not (mt recIterEnabled_iff.mp ?_)
    rintro ⟨hm, hf⟩
    simp [hm, hf] at h
  case exit =>
    refine whenEnabled_of_not (mt recExitEnabled_iff.mp ?_)
    rintro ⟨hm, hf⟩
    simp [hm, hf] at h
  case tick => exact whenEnabled_of_not (mt tickEnabled_iff.mp (Nat.not_lt.mpr h))
  case expire => exact whenEnabled_of_not (mt expireEnabled_iff.mp h)

end Machine

end Sys2Proof

/-! Proofs about the three outcomes of a dispatch: which row has which outcome, and the effect of each. -/

namespace Sys2Proof

namespace Machine

section
variable {s : State} {f : Frame}

/-! The rows of a dispatch in a state that enables them; the frame is the buffer's or the operand. -/

theorem framing_enabled {mn : String} {o : Out} (he : dispatchEnabled s = true)
    (h : f.marker ≠ marker ∨ s.sync = false) :
    whenEnabled mn (dispatchEnabled s && (!f.markerOk || !s.sync)) o = o := by
  rcases h with hm | hs
  · simp [he, f.markerOk_false_iff.mpr hm]
  · simp [he, hs]

theorem checksum_enabled {mn : String} {o : Out} (he : dispatchEnabled s = true) (hm : f.marker = marker)
    (hs : s.sync = true) (hc : f.checksum ≠ f.chk) :
    whenEnabled mn (dispatchEnabled s && s.sync && f.markerOk && !f.chkOk) o = o := by
  simp [he, hs, f.markerOk_iff.mpr hm, f.chkOk_false_iff.mpr hc]

theorem accept_enabled {mn : String} {o : Out} (he : dispatchEnabled s = true) (hm : f.marker = marker)
    (hs : s.sync = true) (hc : f.checksum = f.chk) :
    whenEnabled mn (dispatchEnabled s && s.sync && f.markerOk && f.chkOk) o = o := by
  simp [he, hs, f.markerOk_iff.mpr hm, f.chkOk_iff.mpr hc]

theorem exec_dispS_of_framing (he : dispatchEnabled s = true) (h : bufAt s 0 ≠ marker ∨ s.sync = false) :
    exec .dispS s = .next (rejectFraming s) :=
  framing_enabled (f := frameOf s) he h

theorem exec_dispK_of_checksum (he : dispatchEnabled s = true) (hm : bufAt s 0 = marker) (hs : s.sync = true)
    (hc : (frameOf s).checksum ≠ bufAt s 9) : exec .dispK s = .next (rejectChecksum s) :=
  checksum_enabled (f := frameOf s) he hm hs hc

theorem exec_dispG_of_good (he : dispatchEnabled s = true) (hm : bufAt s 0 = marker) (hs : s.sync = true)
    (hc : (frameOf s).checksum = bufAt s 9) : exec .dispG s = .next (acceptFrame (frameOf s) s) :=
  accept_enabled (f := frameOf s) he hm hs hc

theorem exec_cmdBadmarker_of_framing (he : dispatchEnabled s = true) (h : f.marker ≠ marker ∨ s.sync = false) :
    exec (.cmdBadmarker f) s = .next (rejectFraming s) :=
  framing_enabled he h

theorem exec_cmdBadchk_of_checksum (he : dispatchEnabled s = true) (hm : f.marker = marker) (hs : s.sync = true)
    (hc : f.checksum ≠ f.chk) : exec (.cmdBadchk f) s = .next (rejectChecksum s) :=
  checksum_enabled he hm hs hc

theorem exec_cmd_of_good (he : dispatchEnabled s = true) (hm : f.marker = marker) (hs : s.sync = true)
    (hc : f.checksum = f.chk) : exec (.cmd f) s = .next (acceptFrame f s) :=
  accept_enabled he hm hs hc

end

/-- Settles O22: under the condition of an outcome the dispatch of the buffer's frame is that outcome, and the outcome's
own row is enabled. -/
theorem dispatchTestsMarkerThenChecksum : Obligations.DispatchTestsMarkerThenChecksum := by
  unfold Obligations.DispatchTestsMarkerThenChecksum
  intro s he
  have hdispatch : exec .dispatch s = .next (dispatchFrame (frameOf s) s) := exec_dispatch_eq_next.mpr ⟨he, rfl⟩
  refine ⟨fun h => ?_, fun hm hs hc => ?_, fun hm hs hc => ?_⟩
  · rw [hdispatch, exec_dispS_of_framing he h,
      dispatchFrame_of_framing (h.imp_left (frameOf s).markerOk_false_iff.mpr)]
  · rw [hdispatch, exec_dispK_of_checksum he hm hs hc,
      dispatchFrame_of_checksum ((frameOf s).markerOk_iff.mpr hm) hs ((frameOf s).chkOk_false_iff.mpr hc)]
  · rw [hdispatch, exec_dispG_of_good he hm hs hc,
      dispatchFrame_of_good ((frameOf s).markerOk_iff.mpr hm) hs ((frameOf s).chkOk_iff.mpr hc)]

/-- A dispatch sends one acknowledgement, which tells the link state after it, and only `'G'` lets the channels and the
outputs change (spec/41_dispatch.md R95). -/
theorem dispatchFrame_acknowledges (f : Frame) (s : State) :
    let t := dispatchFrame f s
    ∃ ack, t.tx = s.tx ++ [ack] ∧ (ack = ackOk ∨ ack = nakChk ∨ ack = nakSync) ∧ (t.sync = false ↔ ack = nakSync) ∧
      (ack ≠ ackOk → t.pw = s.pw ∧ t.doutA = s.doutA ∧ t.doutB = s.doutB) := by
  rcases dispatchFrame_cases f s with ⟨-, e⟩ | ⟨-, hs, -, e⟩ | ⟨-, hs, -, e⟩ <;> simp only [e]
  · exact ⟨nakSync, rfl, .inr (.inr rfl), by simp [rejectFraming_eq], fun _ => ⟨rfl, rfl, rfl⟩⟩
  · exact ⟨nakChk, rfl, .inr (.inl rfl), by simp [rejectChecksum_eq, hs], fun _ => ⟨rfl, rfl, rfl⟩⟩
  · exact ⟨ackOk, rfl, .inl rfl, by simp [acceptFrame_eq, hs], fun hne => absurd rfl hne⟩

/-- Settles O24: every outcome consumes the frame and leaves the other fields (`dispatchFrame_frame`), and sends one
acknowledgement (`dispatchFrame_acknowledges`). -/
theorem dispatchAcknowledgesOnce : Obligations.DispatchAcknowledgesOnce := by
  unfold Obligations.DispatchAcknowledgesOnce
  intro s he
  obtain ⟨ack, htx, hack, hsync, hkept⟩ := dispatchFrame_acknowledges (frameOf s) s
  have hdispatch := exec_dispatch_eq_next.mpr ⟨he, rfl⟩
  rw [dispatchFrame_frame] at hdispatch
  exact ⟨_, ack, hdispatch, rfl, rfl, rfl, htx, hack, hsync, hkept, rfl, rfl, rfl, rfl, rfl⟩

/-- Settles O25: both rows are the framing error, whose fields `rejectFraming_eq` writes out. -/
theorem framingErrorEffect : Obligations.FramingErrorEffect := by
  unfold Obligations.FramingErrorEffect
  refine ⟨fun s he h => ?_, fun s f he h => ?_⟩
  · rw [exec_dispS_of_framing he h, rejectFraming_eq]
  · rw [exec_cmdBadmarker_of_framing he h, rejectFraming_eq]

/-- Settles O26: both rows are the checksum error, whose fields `rejectChecksum_eq` writes out. -/
theorem checksumErrorEffect : Obligations.ChecksumErrorEffect := by
  unfold Obligations.ChecksumErrorEffect
  refine ⟨fun s he hm hs hc => ?_, fun s f he hm hs hc => ?_⟩
  · rw [exec_dispK_of_checksum he hm hs hc, rejectChecksum_eq]
  · rw [exec_cmdBadchk_of_checksum he hm hs hc, rejectChecksum_eq]

/-- Settles O27: both rows accept the frame; each channel gets the mapped position and each output its switch bit. -/
theorem acceptedFrameEffect : Obligations.AcceptedFrameEffect := by
  unfold Obligations.AcceptedFrameEffect
  refine ⟨fun s he hm hs hc => ?_, fun s f he hm hs hc => ?_⟩
  · rw [exec_dispG_of_good he hm hs hc, acceptFrame_eq, switchA_eq_bit, switchB_eq_bit]
    rfl
  · rw [exec_cmd_of_good he hm hs hc, acceptFrame_eq, switchA_eq_bit, switchB_eq_bit]
    rfl

end Machine

end Sys2Proof

/-! Proofs about the pulse-width mapper and the actuation engine: the arithmetic of compare values, and which register each
row writes. -/

namespace Sys2Proof

namespace Machine

/-- A compare value of spec/42_pwm.md R106, by its bounds: `MIN_PULSE` itself fits the register (spec/00_scope.md R7), so
every value below it does. -/
theorem InPulseRange.bounds {cfg : Config} {v : Nat} (h : InPulseRange cfg v) :
    v ≤ cfg.minPulse ∧ cfg.minPulse - 1248 ≤ v ∧ (cfg.minPulse - v) % 8 = 0 ∧ v < 2 ^ cfg.pwWidth := by
  obtain ⟨k, hk, hv : v + k * 8 = cfg.minPulse⟩ := h
  have hfits := cfg.minPulse_fits
  have hpos : 0 < 2 ^ cfg.pwWidth := Nat.two_pow_pos _
  simp only [posClip] at hk
  refine ⟨?_, ?_, ?_, ?_⟩ <;> omega

/-- Settles O37: the step keeps the invariant, whose range clauses speak of the configuration that no step writes. -/
theorem compareValuesStayInRange : Obligations.CompareValuesStayInRange := by
  unfold Obligations.CompareValuesStayInRange
  intro s t c h hst
  have hinv : Inv t := stepKeepsTheInvariant s t h hst
  rw [← configurationIsNeverWritten s t hst]
  exact ⟨(hinv.pw_range c).bounds, (hinv.pwa_range c).bounds⟩

/-! The mapper. -/

/-- Clipping and then scaling is scaling and then clipping at the scaled bound (spec/42_pwm.md R100). -/
theorem mapOffset_eq_min_scaled (p : Byte) : mapOffset p = min (p.toNat * 8) 1248 :=
  (Nat.mul_min_mul_right p.toNat 156 8).symm

theorem mapOffset_mod (p : Byte) : mapOffset p % 8 = 0 := Nat.mul_mod_left _ _

theorem mapOffset_mono {p q : Byte} (h : p.toNat ≤ q.toNat) : mapOffset p ≤ mapOffset q := by
  simp only [mapOffset, posClip, posScale]
  omega

theorem mapOffset_of_ge {p : Byte} (h : 156 ≤ p.toNat) : mapOffset p = 1248 :=
  congrArg (· * posScale) (Nat.min_eq_right h)

theorem mapOffset_of_le {p : Byte} (h : p.toNat ≤ 156) : mapOffset p = 8 * p.toNat := by
  rw [mapOffset, Nat.min_eq_left h, Nat.mul_comm]

/-- Settles O31: each clause about the clipped and scaled position is a law above, and the row leaves it in `ret`. -/
theorem mapperClipsAndScales : Obligations.MapperClipsAndScales := by
  unfold Obligations.MapperClipsAndScales
  exact ⟨fun p => ⟨rfl, mapOffset_eq_min_scaled p⟩, fun p => ⟨mapOffset_le p, mapOffset_mod p⟩,
    fun _ _ => mapOffset_mono, fun _ => mapOffset_of_ge, fun _ => mapOffset_of_le, fun _ _ => rfl⟩

/-! The actuation engine: one equation per row, and what a write of one channel leaves in each. -/

theorem exec_period (c : Channel) (s : State) : exec (.period c) s = .next (commitChannel c s) := rfl

theorem exec_neutralizeAll (s : State) : exec .neutralizeAll s = .next (neutralizeAll s) := rfl

theorem exec_setChannel_of_le {off : Nat} (c : Channel) (s : State) (h : off ≤ maxOffset) :
    exec (.setChannel c off) s = .next (setChannel c off s) := by
  rw [exec, execSetChannel, if_pos h]

theorem exec_setChannel_of_gt {off : Nat} (c : Channel) (s : State) (h : maxOffset < off) :
    exec (.setChannel c off) s = .next (setChannelFree c s) := by
  rw [exec, execSetChannel, if_neg (Nat.not_le.mpr h)]

theorem commitChannel_pwa_get (c : Channel) (s : State) : (commitChannel c s).pwa.get c = s.pw.get c :=
  Channels.get_set_same ..

theorem setChannel_pw_get (c : Channel) (off : Nat) (s : State) :
    (setChannel c off s).pw.get c = s.cfg.minPulse - off :=
  Channels.get_set_same ..

theorem neutralizeAll_pw_get (c : Channel) (s : State) : (neutralizeAll s).pw.get c = s.cfg.minPulse :=
  Channels.get_fill ..

/-- Settles O36: the row is `commitChannel`, which sets one applied value and no other field. -/
theorem periodAppliesThePendingValue : Obligations.PeriodAppliesThePendingValue := by
  unfold Obligations.PeriodAppliesThePendingValue
  exact fun s c => ⟨_, exec_period c s, commitChannel_pwa_get c s, fun _ hd => Channels.get_set_other _ _ hd, rfl⟩

/-- Settles O32: the row is `setChannel`, and an offset of at most 1248 never borrows from `MIN_PULSE`. -/
theorem setChannelWritesOneRegister : Obligations.SetChannelWritesOneRegister := by
  unfold Obligations.SetChannelWritesOneRegister
  intro s c off hoff
  have hexact : s.cfg.minPulse - off + off = s.cfg.minPulse := Nat.sub_add_cancel (Nat.le_trans hoff s.cfg.minPulse_ge)
  refine ⟨setChannel c off s, _, exec_setChannel_of_le c s hoff, ?_, fun _ hd => Channels.get_set_other _ _ hd, rfl,
    exec_period c _, ?_⟩
  · rw [setChannel_pw_get, hexact]
  · rw [commitChannel_pwa_get, setChannel_pw_get]

/-- Settles O33: the row is `setChannelFree`, whose value is reduced to the width of the register. -/
theorem setChannelOutOfRangeWritesAFreeValue : Obligations.SetChannelOutOfRangeWritesAFreeValue := by
  unfold Obligations.SetChannelOutOfRangeWritesAFreeValue
  intro s c off hoff
  refine ⟨setChannelFree c s, _, exec_setChannel_of_gt c s hoff, ?_, fun _ hd => Channels.get_set_other _ _ hd, rfl,
    exec_period c _, commitChannel_pwa_get c _⟩
  rw [setChannelFree_pw, Channels.get_set_same]
  exact Nat.mod_lt _ (Nat.two_pow_pos _)

/-- Settles O34: the row fills the registers with `MIN_PULSE`, which is what offset 0 gives each of them. -/
theorem neutralizeAllEffect : Obligations.NeutralizeAllEffect := by
  unfold Obligations.NeutralizeAllEffect
  refine fun s => ⟨exec_neutralizeAll s, fun c => ?_, exec_neutralizeAll _, fun c => ⟨_, exec_period c _, ?_⟩⟩
  · rw [neutralizeAll_pw_get, setChannel_pw_get, Nat.sub_zero]
  · rw [commitChannel_pwa_get, neutralizeAll_pw_get]

/-- Settles O35: each output is the test of its mask, and the mask has the one bit. -/
theorem digitalOutputsFollowTheirBits : Obligations.DigitalOutputsFollowTheirBits := by
  unfold Obligations.DigitalOutputsFollowTheirBits
  refine fun s b => ⟨?_, bne_iff_ne, bne_iff_ne⟩
  rw [← switchA_eq_bit, ← switchB_eq_bit]
  rfl

end Machine

end Sys2Proof

/-! Proofs about the watchdog and the main sequencer: the effect of each operation, which of them are enabled, and what
holds through any run of events. -/

namespace Sys2Proof

namespace Machine

/-- Settles O38: below the threshold `TICK` is enabled. -/
theorem tickAdvancesTheCounter : Obligations.TickAdvancesTheCounter := by
  unfold Obligations.TickAdvancesTheCounter
  exact fun s h => whenEnabled_eq_next.mpr ⟨tickEnabled_iff.mpr h, rfl⟩

/-- Settles O39: at the threshold `TICK.EXPIRE` is enabled, and its fields are those of `expire_eq`. -/
theorem expirySetsFailOnly : Obligations.ExpirySetsFailOnly := by
  unfold Obligations.ExpirySetsFailOnly
  intro s h
  rw [← expire_eq]
  exact whenEnabled_eq_next.mpr ⟨expireEnabled_iff.mpr h, rfl⟩

/-- Settles O40: the hypotheses are the enabling condition, and the registers are filled with `MIN_PULSE`. -/
theorem recoveryEntryNeutralizes : Obligations.RecoveryEntryNeutralizes := by
  unfold Obligations.RecoveryEntryNeutralizes
  exact fun s hm hf hr => whenEnabled_eq_next.mpr ⟨recEnterEnabled_iff.mpr ⟨hm, hf, hr⟩, rfl⟩

/-- Settles O41: the hypotheses are the enabling condition. -/
theorem recoveryIterationErasesProgress : Obligations.RecoveryIterationErasesProgress := by
  unfold Obligations.RecoveryIterationErasesProgress
  exact fun s hm hf => whenEnabled_eq_next.mpr ⟨recIterEnabled_iff.mpr ⟨hm, hf⟩, rfl⟩

/-- Settles O42: the hypotheses are the enabling condition. -/
theorem recoveryExitReturnsToRun : Obligations.RecoveryExitReturnsToRun := by
  unfold Obligations.RecoveryExitReturnsToRun
  exact fun s hm hf => whenEnabled_eq_next.mpr ⟨recExitEnabled_iff.mpr ⟨hm, hf⟩, rfl⟩

/-- Settles O43: the hypotheses are the enabling condition. -/
theorem idleChangesNothing : Obligations.IdleChangesNothing := by
  unfold Obligations.IdleChangesNothing
  exact fun s hm hf hr => whenEnabled_eq_next.mpr ⟨idleEnabled_iff.mpr ⟨hm, hf, hr⟩, rfl⟩

/-! Which step the main sequencer takes (spec/43_watchdog.md R115). -/

/-- The operation of each step of the main sequencer. -/
def MainStep.operation : MainStep → Instr
  | .dispatch => .dispatch
  | .enter => .recEnter
  | .iter => .recIter
  | .exit => .recExit
  | .idle => .idle

theorem exists_whenEnabled_eq_next {mn : String} {c : Bool} {u : State} :
    (∃ t, whenEnabled mn c (.next u) = .next t) ↔ c = true :=
  ⟨fun ⟨_, h⟩ => (whenEnabled_eq_next.mp h).1, fun h => ⟨u, whenEnabled_eq_next.mpr ⟨h, rfl⟩⟩⟩

theorem MainStep.exec_operation_completes_iff (m : MainStep) (s : State) :
    (∃ t, exec m.operation s = .next t) ↔ m.enabled s = true := by
  cases m <;> exact exists_whenEnabled_eq_next

theorem exec_mainStep_completes {pick : MainChoice} {s : State} {m : MainStep} (h : mainStep pick s = m) :
    ∃ t, exec m.operation s = .next t :=
  (m.exec_operation_completes_iff s).mpr (h ▸ mainStep_enabled pick s)

/-- An enabled recovery entry is the next step if the environment prefers it. -/
theorem mainStep_enterFirst {s : State} (h : recEnterEnabled s = true) : mainStep .enterFirst s = .enter := by
  obtain ⟨hm, -, -⟩ := recEnterEnabled_iff.mp h
  simp [mainStep, recIterEnabled, recExitEnabled, hm, h]

/-- An enabled dispatch is the next step if the environment prefers it. -/
theorem mainStep_dispatchFirst {s : State} (h : dispatchEnabled s = true) : mainStep .dispatchFirst s = .dispatch := by
  obtain ⟨hm, -, -⟩ := dispatchEnabled_iff.mp h
  cases he : recEnterEnabled s <;> simp [mainStep, recIterEnabled, recExitEnabled, hm, h, he]

/-- While the recovery phase lasts the main sequencer iterates (spec/43_watchdog.md R113). -/
theorem mainStep_eq_iter {s : State} (pick : MainChoice) (hm : s.mphase = .recovery) (hf : s.fail = true) :
    mainStep pick s = .iter := by
  unfold mainStep
  rw [if_pos (recIterEnabled_iff.mpr ⟨hm, hf⟩)]

/-- Settles O44: each operation answers exactly under its enabling condition, the picked step is enabled, and the two
steps that `MAIN_PRIORITY` may leave enabled together are each picked by some choice. -/
theorem mainSequencerEnabling : Obligations.MainSequencerEnabling := by
  unfold Obligations.MainSequencerEnabling
  intro s
  have hcompletes (m : MainStep) := m.exec_operation_completes_iff s
  refine ⟨(hcompletes .enter).trans recEnterEnabled_iff, (hcompletes .dispatch).trans dispatchEnabled_iff,
    (hcompletes .idle).trans idleEnabled_iff, (hcompletes .iter).trans recIterEnabled_iff,
    (hcompletes .exit).trans recExitEnabled_iff, fun pick => ?_, fun h => ?_, fun h => ?_⟩
  · exact ⟨exec_mainStep_completes, exec_mainStep_completes, exec_mainStep_completes, exec_mainStep_completes,
      exec_mainStep_completes⟩
  · exact ⟨_, mainStep_enterFirst ((hcompletes .enter).mp h)⟩
  · exact ⟨_, mainStep_dispatchFirst ((hcompletes .dispatch).mp h)⟩

/-! What an event does, when it answers a next state. -/

section
variable {s t : State}

/-- No instruction writes the schedule: only the step takes its entries off. -/
theorem Effect.sched_eq {i : Instr} (h : Effect i s t) : t.sched = s.sched := by
  cases h <;> rfl

theorem runEvent_effect {e : Event} (h : runEvent e s = .next t) : ∃ i, i.isFired = true ∧ Effect i s t := by
  obtain ⟨i, hf, hx⟩ := runEvent_eq_next h
  exact ⟨i, fetch_isFired hf, exec_effect hx⟩

/-- A tick counts, and the one that reaches the threshold expires (spec/43_watchdog.md R110, R111). -/
theorem runEvent_tick_cases (h : runEvent .tick s = .next t) :
    (s.tcnt + 1 < s.cfg.tTimeout ∧ t = { s with tcnt := s.tcnt + 1 }) ∨ t = expire s := by
  by_cases hlt : s.tcnt + 1 < s.cfg.tTimeout
  · rw [runEvent_of_fetch (fetch_tick_of_lt hlt), tickAdvancesTheCounter s hlt] at h
    cases h
    exact .inl ⟨hlt, rfl⟩
  · rw [runEvent_of_fetch (fetch_tick_of_not_lt hlt)] at h
    obtain ⟨-, h⟩ := whenEnabled_eq_next.mp h
    cases h
    exact .inr rfl

theorem runEvent_period_eq {c : Channel} (h : runEvent (.period c) s = .next t) : t = commitChannel c s := by
  cases h
  rfl

/-- Without a frame to dispatch a main step leaves the timer, `fail` and `ready`. -/
theorem runEvent_main_of_not_ready {pick : MainChoice} (hr : s.ready = false) (h : runEvent (.main pick) s = .next t) :
    t.ready = s.ready ∧ t.tcnt = s.tcnt ∧ t.fail = s.fail := by
  have henabled := mainStep_enabled pick s
  cases hm : mainStep pick s with
  | dispatch =>
    rw [hm] at henabled
    obtain ⟨-, hready, -⟩ := dispatchEnabled_iff.mp henabled
    exact nomatch hr.symm.trans hready
  | enter | iter | exit | idle =>
    rw [runEvent_of_fetch (fetch_main (by simp [hm])), hm] at h
    obtain ⟨-, h⟩ := whenEnabled_eq_next.mp h
    cases h
    exact ⟨rfl, rfl, rfl⟩

/-- In the recovery phase a main step is one iteration (spec/43_watchdog.md R113). -/
theorem runEvent_main_of_recovery {pick : MainChoice} (hm : s.mphase = .recovery) (hf : s.fail = true)
    (h : runEvent (.main pick) s = .next t) : t = clearProgress { s with sync := false } := by
  have hiter := mainStep_eq_iter pick hm hf
  rw [runEvent_of_fetch (fetch_main (by simp [hiter])), hiter] at h
  obtain ⟨-, h⟩ := whenEnabled_eq_next.mp h
  cases h
  rfl

theorem runEvent_rx (b : Byte) (s : State) : runEvent (.rx b) s = exec (.rx b) s := by
  rw [runEvent_of_fetch (fetch_rx b s), exec_decodeByteIn]

/-- A byte received while Synchronized leaves the phase, `fail` and the recognizer (spec/40_framesync.md R81, R82). -/
theorem exec_rx_of_synchronized {b : Byte} (hs : s.sync = true) (h : exec (.rx b) s = .next t) :
    t.mphase = s.mphase ∧ t.fail = s.fail ∧ escProgress t = escProgress s := by
  by_cases hx : s.idx.val ≤ 13
  · rw [exec_rx_of_free hs hx, append_of_le b hx] at h
    cases h
    exact ⟨rfl, rfl, rfl⟩
  · rw [exec_rx_of_full hs (by omega)] at h
    cases h
    exact ⟨rfl, rfl, rfl⟩

end

/-- The induction over a run of events: a property of a state and of the events yet to come that survives taking an
entry off the schedule, bounds the timer and is kept by every event holds after the run, which completes. -/
theorem run_events {P : List Event → State → Prop}
    (htaken : ∀ {es s item l}, P es s → s.sched = item :: l → P es { s with sched := l })
    (htimer : ∀ {es s}, P es s → s.tcnt < s.cfg.tTimeout)
    (hevent : ∀ {e es s t}, P (e :: es) s → runEvent e s = .next t → P es t)
    {es : List Event} {s : State} {rest : List Item} (h : P es s) (hsched : s.sched = es.map Item.event ++ rest) :
    ∃ t, Host.Core.run Sys2Proof.core es.length s = .next t ∧ P [] t ∧ t.sched = rest := by
  induction es generalizing s with
  | nil => exact ⟨s, run_zero s, h, hsched⟩
  | cons e es ih =>
    have htaken' := htaken h hsched
    obtain ⟨t, ht⟩ := runEvent_completes e (htimer htaken')
    obtain ⟨i, -, heff⟩ := runEvent_effect ht
    obtain ⟨u, hrun, hu⟩ := ih (hevent htaken' ht) heff.sched_eq
    exact ⟨u, (run_succ _ ((step_of_event hsched).trans ht)).trans hrun, hu⟩

/-! The silence timeout (spec/43_watchdog.md R117 (d)). -/

/-- No frame waits, the events to come bring neither a byte nor a frame, and their ticks are enough to expire the timer,
unless it has expired already. -/
structure Silent (es : List Event) (s : State) : Prop where
  tcnt_lt : s.tcnt < s.cfg.tTimeout
  not_ready : s.ready = false
  events : ∀ e ∈ es, e = .tick ∨ (∃ c, e = .period c) ∨ ∃ p, e = .main p
  trips : s.fail = true ∨ s.cfg.tTimeout ≤ s.tcnt + es.count .tick

/-- An event that is no tick and leaves the timer, `fail` and `ready` uses up no silence. -/
theorem Silent.of_timer_kept {e : Event} {es : List Event} {s t : State} (h : Silent (e :: es) s) (he : e ≠ .tick)
    (hcfg : t.cfg = s.cfg) (hkept : t.ready = s.ready ∧ t.tcnt = s.tcnt ∧ t.fail = s.fail) : Silent es t := by
  obtain ⟨hready, htcnt, hfail⟩ := hkept
  have htrips := h.trips
  rw [List.count_cons_of_ne he] at htrips
  exact ⟨by rw [htcnt, hcfg]; exact h.tcnt_lt, hready.trans h.not_ready,
    fun d hd => h.events d (List.mem_cons_of_mem _ hd), by rwa [hfail, hcfg, htcnt]⟩

/-- A tick moves one tick from the events to the counter, or sets `fail`. -/
theorem Silent.tick {es : List Event} {s t : State} (h : Silent (.tick :: es) s) (ht : runEvent .tick s = .next t) :
    Silent es t := by
  have hevents (d : Event) (hd : d ∈ es) := h.events d (List.mem_cons_of_mem _ hd)
  rcases runEvent_tick_cases ht with ⟨hlt, rfl⟩ | rfl
  · have htrips := h.trips
    rw [List.count_cons_self, Nat.add_comm _ 1, ← Nat.add_assoc] at htrips
    exact ⟨hlt, h.not_ready, hevents, htrips⟩
  · exact ⟨s.cfg.tTimeout_pos, h.not_ready, hevents, .inl rfl⟩

theorem Silent.event {e : Event} {es : List Event} {s t : State} (h : Silent (e :: es) s)
    (ht : runEvent e s = .next t) : Silent es t := by
  obtain ⟨i, -, heff⟩ := runEvent_effect ht
  rcases h.events e List.mem_cons_self with rfl | ⟨c, rfl⟩ | ⟨pick, rfl⟩
  · exact h.tick ht
  · refine h.of_timer_kept (by simp) heff.cfg_eq ?_
    rw [runEvent_period_eq ht]
    exact ⟨rfl, rfl, rfl⟩
  · exact h.of_timer_kept (by simp) heff.cfg_eq (runEvent_main_of_not_ready h.not_ready ht)

/-- Settles O45: each tick of the silence moves the counter towards the threshold, the other events leave it, and no
event of the silence clears `fail`. -/
theorem silenceTripsTheWatchdog : Obligations.SilenceTripsTheWatchdog := by
  unfold Obligations.SilenceTripsTheWatchdog
  intro s es rest htcnt hready hevents hcount hsched
  have hsilent : Silent es s := ⟨htcnt, hready, hevents, .inr (Nat.le_add_left_of_le hcount)⟩
  obtain ⟨t, hrun, ht, hrest⟩ :=
    run_events (P := Silent) (fun h _ => { h with }) Silent.tcnt_lt Silent.event hsilent hsched
  refine ⟨t, hrun, ht.trips.resolve_right ?_, hrest⟩
  exact Nat.not_le.mpr ht.tcnt_lt

/-! The fail-safe state (spec/43_watchdog.md R117 (a), (b)). -/

/-- The bytes that a list of events receives. -/
def received (es : List Event) : List Byte := es.filterMap fun e => match e with | .rx b => some b | _ => none

/-- What is still to be matched of the escape sequence (spec/40_framesync.md R85). -/
def missing (s : State) : List Byte := escSequence.drop (escProgress s)

theorem missing_sublist_of_le {s t : State} (h : escProgress t ≤ escProgress s) : (missing s).Sublist (missing t) :=
  List.drop_sublist_drop_left _ h

/-- What is missing after a byte was scanned, and the byte in front of it, have in them what was missing before. -/
theorem drop_progress_sublist_cons {p : Nat} {b : Byte} {bs : List Byte}
    (h : (escSequence.drop (progressAfter p b)).Sublist bs) : (escSequence.drop p).Sublist (b :: bs) := by
  unfold progressAfter at h
  split at h
  next hE =>
    obtain ⟨rfl, rfl⟩ := hE
    exact h.cons_cons _
  next =>
    split at h
    next hN =>
      obtain ⟨rfl, rfl⟩ := hN
      exact h.cons_cons _
    next =>
      split at h
      next hD =>
        obtain ⟨rfl, rfl⟩ := hD
        exact h.cons_cons _
      next => exact h.cons _

/-- The recovery phase with `fail` set, and events to come that neither reset the block nor complete the escape
sequence. -/
structure FailSafe (cfg : Config) (es : List Event) (s : State) : Prop where
  cfg_eq : s.cfg = cfg
  inv : Inv s
  phase : s.mphase = .recovery
  failed : s.fail = true
  no_reset : ∀ e ∈ es, e ≠ .reset
  no_escape : ¬ (missing s).Sublist (received es)

section
variable {cfg : Config} {es : List Event} {s t : State}

/-- A byte received while Searching does not complete the sequence, and what is missing after it does not come. -/
theorem FailSafe.scan {b : Byte} (h : FailSafe cfg (.rx b :: es) s) (hs : s.sync = false)
    (ht : exec (.rx b) s = .next t) :
    t.mphase = .recovery ∧ t.fail = true ∧ ¬ (missing t).Sublist (received es) := by
  have hno : ¬ (missing s).Sublist (b :: received es) := h.no_escape
  have hff : ¬(b = escByteFF ∧ s.escD = true) := by
    rintro ⟨rfl, hd⟩
    rw [missing, h.inv.escProgress_eq_three_iff.mpr hd] at hno
    exact hno ((List.nil_sublist _).cons_cons _)
  rw [exec_rx_of_searching hs, search_of_not_ff hs hff] at ht
  cases ht
  refine ⟨h.phase, h.failed, fun hsub => hno (drop_progress_sublist_cons ?_)⟩
  rwa [missing, escProgress, progress_after_scan h.inv.esc_d_n h.inv.esc_n_e] at hsub

/-- An event that does not advance the recognizer leaves the sequence incomplete. -/
theorem FailSafe.no_escape_of_le {e : Event} (h : FailSafe cfg (e :: es) s) (hp : escProgress t ≤ escProgress s) :
    ¬ (missing t).Sublist (received es) := by
  have hbytes : (received es).Sublist (received (e :: es)) := (List.sublist_cons_self e es).filterMap _
  exact fun hsub => h.no_escape ((missing_sublist_of_le hp).trans (hsub.trans hbytes))

/-- No event leaves the recovery phase, clears `fail` or brings the sequence further than its byte does. -/
theorem FailSafe.held {e : Event} (h : FailSafe cfg (e :: es) s) (ht : runEvent e s = .next t) :
    t.mphase = .recovery ∧ t.fail = true ∧ ¬ (missing t).Sublist (received es) := by
  cases e with
  | rx b =>
    rw [runEvent_rx] at ht
    cases hs : s.sync with
    | false => exact h.scan hs ht
    | true =>
      obtain ⟨hm, hf, hp⟩ := exec_rx_of_synchronized hs ht
      exact ⟨hm.trans h.phase, hf.trans h.failed, h.no_escape_of_le (Nat.le_of_eq hp)⟩
  | tick =>
    rcases runEvent_tick_cases ht with ⟨-, rfl⟩ | rfl
    · exact ⟨h.phase, h.failed, h.no_escape_of_le (Nat.le_refl _)⟩
    · exact ⟨h.phase, rfl, h.no_escape_of_le (Nat.le_refl _)⟩
  | main pick =>
    rw [runEvent_main_of_recovery h.phase h.failed ht]
    exact ⟨h.phase, h.failed, h.no_escape_of_le (Nat.zero_le _)⟩
  | period c =>
    rw [runEvent_period_eq ht]
    exact ⟨h.phase, h.failed, h.no_escape_of_le (Nat.le_refl _)⟩
  | reset => exact absurd rfl (h.no_reset _ List.mem_cons_self)

theorem FailSafe.event {e : Event} (h : FailSafe cfg (e :: es) s) (ht : runEvent e s = .next t) :
    FailSafe cfg es t := by
  obtain ⟨i, hi, heff⟩ := runEvent_effect ht
  obtain ⟨hphase, hfail, hno⟩ := h.held ht
  exact ⟨heff.cfg_eq.trans h.cfg_eq, heff.keeps_inv hi h.inv, hphase, hfail,
    fun d hd => h.no_reset d (List.mem_cons_of_mem _ hd), hno⟩

end

/-- Settles O46: what is missing of the escape sequence is never a subsequence of the bytes to come, so that no byte
0xFF finds all three letters matched; the channels are neutral by the invariant. -/
theorem failSafeEndsOnlyByTheEscapeSequence : Obligations.FailSafeEndsOnlyByTheEscapeSequence := by
  unfold Obligations.FailSafeEndsOnlyByTheEscapeSequence
  intro s es rest hinv hm hf hE hreset hno hsched
  have hp : escProgress s = 0 := by
    have hN : s.escN = false := Bool.eq_false_iff.mpr (mt hinv.esc_n_e (Bool.eq_false_iff.mp hE))
    have hD : s.escD = false := Bool.eq_false_iff.mpr (mt hinv.esc_d_n (Bool.eq_false_iff.mp hN))
    simp [escProgress, hE, hN, hD]
  have hno' : ¬ (missing s).Sublist (received es) := by
    rw [missing, hp]
    exact hno
  have hsafe : FailSafe s.cfg es s := ⟨rfl, hinv, hm, hf, hreset, hno'⟩
  obtain ⟨t, hrun, ht, -⟩ := run_events (P := FailSafe s.cfg)
    (fun h hs => { h with inv := (h.inv.sched_cons hs).2 }) (fun h => h.inv.tcnt_lt) FailSafe.event hsafe hsched
  refine ⟨t, hrun, ht.phase, ht.failed, ?_⟩
  rw [← ht.cfg_eq]
  exact ht.inv.recovery_neutral ht.phase

end Machine

end Sys2Proof

/-! Proofs about reset: the state it leaves meets the invariant, and every field has the value of
spec/70_reset_and_hazards.md R140. -/

namespace Sys2Proof

namespace Machine

/-- Settles O9: the reset of every configuration meets the invariant, and the machine's is one of them. -/
theorem resetMeetsTheInvariant : Obligations.ResetMeetsTheInvariant := by
  unfold Obligations.ResetMeetsTheInvariant
  exact ⟨resetOf_meets_inv Config.machine, resetOf_meets_inv⟩

/-- `RESET` has no enabling condition (spec/70_reset_and_hazards.md R140). -/
theorem exec_reset (s : State) : exec .reset s =
    .next { State.resetOf s.cfg with sched := s.sched, draw := s.draw, epoch := s.epoch + 1, ret := s.ret } := rfl

theorem resetOf_pw_get (cfg : Config) (c : Channel) : (State.resetOf cfg).pw.get c = cfg.minPulse :=
  Channels.get_fill ..

theorem resetOf_pwa_get (cfg : Config) (c : Channel) : (State.resetOf cfg).pwa.get c = cfg.minPulse :=
  Channels.get_fill ..

theorem resetOf_buf_read (cfg : Config) (a : Nat) : (State.resetOf cfg).buf.read a = none := rfl

/-- Settles O56: the next state is `State.resetOf` of the configuration before, with the model's own fields set; its
channels are filled with `MIN_PULSE`, its buffer lists no cell, and its flags and counters are literals. -/
theorem resetFromAnyState : Obligations.ResetFromAnyState := by
  unfold Obligations.ResetFromAnyState
  intro s
  have hpulse (c : Channel) :
      (State.resetOf s.cfg).pw.get c = s.cfg.minPulse ∧ (State.resetOf s.cfg).pwa.get c = s.cfg.minPulse :=
    ⟨resetOf_pw_get s.cfg c, resetOf_pwa_get s.cfg c⟩
  exact ⟨_, exec_reset s, rfl, rfl, rfl, rfl, rfl, rfl, rfl, rfl, rfl, rfl, hpulse, rfl, rfl, rfl,
    resetOf_buf_read s.cfg, rfl, rfl, rfl, rfl, rfl⟩

end Machine

end Sys2Proof
